-- ==== Sys2Proof/Word.lean ====
section
/-! DEFINITION. The word types of CORE: bytes of the eight buffers and 32-bit registers (10_state.md R21, 20_memory.md R70). -/

namespace Sys2Proof

/-- One byte of a buffer (00_scope.md R6). -/
abbrev Byte := BitVec 8

/-- One host-visible register (10_state.md R21, `REGW` = 32). -/
abbrev Word := BitVec 32

end Sys2Proof
end

