-- ==== Sys2Proof/Config.lean ====
section
/-! DEFINITION. What an implementation of CORE fixes (00_scope.md R5) and the free values: contents the spec calls unspecified.
A free value is a constant with no body, so no proof can see it (log entries 6, 7, 8, 12, 27, 28). -/

namespace Sys2Proof

/-- The eight buffers, each its own address space (10_state.md R38, 20_memory.md R70). -/
inductive Buf where
  | inp | raw | tile | canvas | save | out | pal | trns
  deriving DecidableEq, Repr

/-- A number system for unit U5: what 45_dct_hash.md R363 asks of `NUMERICS`. -/
structure NumberSystem (N : Type) where
  ofNat : Nat → N
  add : N → N → N
  sub : N → N → N
  mul : N → N → N
  div : N → N → N
  /-- the comparison `<=` -/
  le : N → N → Bool
  cos : N → N
  pi : N
  floor : N → Int
  deriving Inhabited

/-- The parameter `NUMERICS` (00_scope.md R5, 93_implementation_defined.md I28). -/
inductive Numerics where
  /-- the exact reals, over which the spec states its rules -/
  | exactReals
  /-- any other number system, such as binary64: `Config.numerics` -/
  | other
  deriving DecidableEq, Repr

/-- The OPEN parameters of 00_scope.md R5. They stand in State so that a statement about every state is a statement about every
implementation, and so that a run can be evaluated (DESIGN CHOICE, safe: log entry 6). -/
structure Params where
  /-- `IN_MAX` -/
  inMax : Nat
  /-- `RAW_MAX` -/
  rawMax : Nat
  /-- `RAW_INIT_CAP` -/
  rawInitCap : Nat
  /-- `PIX_MAX` -/
  pixMax : Nat
  /-- `NUMERICS` -/
  numerics : Numerics
  deriving DecidableEq, Repr

/-- The bounds 00_scope.md R5 puts on the parameters. -/
abbrev Params.Ok (p : Params) : Prop :=
  1 ≤ p.inMax ∧ p.inMax ≤ 2 ^ 28 ∧ 1 ≤ p.rawMax ∧ p.rawMax ≤ 2 ^ 31 ∧
  1 ≤ p.rawInitCap ∧ p.rawInitCap ≤ p.rawMax ∧ 4096 ≤ p.pixMax ∧ p.pixMax ≤ 2 ^ 31

/-- Capacity of a buffer in bytes (10_state.md R38). -/
def Params.capacity (p : Params) : Buf → Nat
  | .inp => p.inMax
  | .raw => p.rawMax
  | .tile => p.pixMax
  | .canvas => p.pixMax
  | .save => p.pixMax
  | .out => p.pixMax
  | .pal => 768
  | .trns => 256

/-- The parameters State.reset uses: the largest the bounds allow, an initial capacity of 4096, and the exact reals
(DESIGN CHOICE, unsafe for a statement about this one reset state: log entry 6). -/
def Params.default : Params := { inMax := 2 ^ 28, rawMax := 2 ^ 31, rawInitCap := 4096, pixMax := 2 ^ 31, numerics := .exactReals }

/-- FREE VALUE: what byte `i` of buffer `b` holds when nothing has written it since reset number `epoch`
(10_state.md R46, 93_implementation_defined.md I1, I2: any value; log entry 7, safe). -/
opaque Config.unwrittenByte : (epoch : Nat) → Buf → (i : Nat) → Byte

/-- FREE VALUE: the `k`-th value the spec calls unspecified that the machine hands out
(10_state.md R35, 20_memory.md R82, 93_implementation_defined.md I6, I8, I9; log entry 8, safe). -/
opaque Config.freeWord : (k : Nat) → Word

/-- FREE VALUE: what the host reads, outside BUSY, at byte `i` of buffer `b` where the byte has no specified value, between the `fill`-th
command since reset number `epoch` that has `b` as a destination and the next one: a location is idempotent to read
(10_state.md R38, 20_memory.md R80, 93_implementation_defined.md I3, I4, I5; log entry 28, safe). -/
opaque Config.unspecifiedByte : (epoch fill : Nat) → (b : Buf) → (i : Nat) → Byte

/-- FREE VALUE: the number system of an implementation whose `NUMERICS` are not the exact reals; a number is held as its bit pattern
(45_dct_hash.md R363, 93_implementation_defined.md I28; log entry 12, safe). -/
opaque Config.numerics : NumberSystem Nat

/-- FREE VALUE: the field of `bits` bits that an integer outside its range is stored as. The exact reals never leave the range and the
spec states no result beyond it (45_dct_hash.md R331, R346; DESIGN CHOICE, safe: log entry 27). -/
opaque Config.outOfField : (bits : Nat) → (v : Int) → BitVec bits

end Sys2Proof
end

