-- ==== Sys2Proof/Syntax.lean ====
section
/-! DEFINITION. The instructions of CORE: one constructor for each of the 103 rows of spec/opcode_table.json, and the arguments
of the three pseudo-commands (30_encoding.md R120, R121). -/

namespace Sys2Proof

/-- A frame rectangle `(F_X, F_Y, F_W, F_H)` (10_state.md R30). -/
structure Rect where
  x : Word
  y : Word
  w : Word
  h : Word
  deriving DecidableEq, Repr

/-- Arguments of `FRAME(payload, off, rect, ctl)` (40_commands.md R155). -/
structure FrameArgs where
  payload : List Byte
  off : Word
  rect : Rect
  ctl : Word
  deriving DecidableEq, Repr

/-- One palette entry (10_state.md R33). -/
structure Rgb where
  r : Byte
  g : Byte
  b : Byte
  deriving DecidableEq, Repr

/-- The whole-image arguments `W, H, fmt, palette, transparency` of DECODE_STILL and DECODE_ANIM (40_commands.md R156).
`transparency` is the register `TR_CTL`, the three keys and the bytes of `TRNS` (10_state.md R28, R29, R33). -/
structure ImageArgs where
  w : Word
  h : Word
  fmt : Word
  palette : List Rgb
  trCtl : Word
  key0 : Word
  key1 : Word
  key2 : Word
  trns : List Byte
  deriving DecidableEq, Repr

/-- Arguments of `DECODE_STILL` (40_commands.md R156). -/
structure StillArgs where
  payload : List Byte
  image : ImageArgs
  deriving DecidableEq, Repr

/-- One entry of the frame list of `DECODE_ANIM` (40_commands.md R157). -/
structure AnimFrame where
  payload : List Byte
  rect : Rect
  ctl : Word
  deriving DecidableEq, Repr

/-- Arguments of `DECODE_ANIM` (40_commands.md R157). -/
structure AnimArgs where
  frames : List AnimFrame
  image : ImageArgs
  deriving DecidableEq, Repr

/-- The instructions of CORE, in the order of the opcode table. -/
inductive Instr where
  -- host commands (format CMD, 30_encoding.md R100)
  | nop | clear | inflate | recon | canvasInit | compose | hashEnc | hashDec | hashAvg | hashAspect
  | cmdReserved6To7 (op : BitVec 4)
  | cmdReserved12To15 (op : BitVec 4)
  -- pseudo-commands (format PSEUDO, 30_encoding.md R121)
  | frame (a : FrameArgs)
  | decodeStill (a : StillArgs)
  | decodeAnim (a : AnimArgs)
  -- block header and block types (format DEFLATE_HDR, 30_encoding.md R102)
  | hdr (bfinal : BitVec 1) (btype : BitVec 2)
  | stored | fixed | dyn | btypeIllegal
  -- dynamic block header (format DEFLATE_DYN, 30_encoding.md R105)
  | dynCounts (hlit : BitVec 5) (hdist : BitVec 5) (hclen : BitVec 4)
  | dynMetaLengths (length : BitVec 3)
  | dynCodeLengths
  -- meta symbols (format DEFLATE_CL_SYMBOL, 30_encoding.md R107)
  | cln (n : BitVec 4)
  | cl16 | cl17 | cl18
  -- literal/length symbols (format DEFLATE_LL_SYMBOL, 30_encoding.md R104, R108)
  | lit (byte : Byte)
  | eob
  | len257 | len258 | len259 | len260 | len261 | len262 | len263 | len264 | len265 | len266
  | len267 | len268 | len269 | len270 | len271 | len272 | len273 | len274 | len275 | len276
  | len277 | len278 | len279 | len280 | len281 | len282 | len283 | len284 | len285
  | llIllegal286To287 (sym : BitVec 9)
  -- distance symbols (format DEFLATE_D_SYMBOL, 30_encoding.md R104, R109)
  | dist0 | dist1 | dist2 | dist3 | dist4 | dist5 | dist6 | dist7 | dist8 | dist9
  | dist10 | dist11 | dist12 | dist13 | dist14 | dist15 | dist16 | dist17 | dist18 | dist19
  | dist20 | dist21 | dist22 | dist23 | dist24 | dist25 | dist26 | dist27 | dist28 | dist29
  | dIllegal30To31 (sym : BitVec 5)
  -- filter-type bytes (format FILTER_BYTE, 30_encoding.md R113)
  | filterNone | filterSub | filterUp | filterAverage | filterPaeth
  | filterIllegal (ft : Byte)
  -- mode fields of F_CTL (format F_CTL, 10_state.md R31)
  | blendSource | blendOver
  | blendReserved2To3 (blend : BitVec 2)
  | disposeNone | disposeClearToBackground | disposeRestorePrevious | disposeReserved3
  deriving DecidableEq, Repr

end Sys2Proof
end

