-- ==== Sys2Proof/Decode.lean ====
section
/-! DEFINITION. The decoder: what instruction a value read in one of CORE's formats is (30_encoding.md), and the encoder beside it,
written from the same tables. A value is a command word, a header field read by `getbits`, a symbol number that the Huffman
decoder returned, a filter byte or the register `F_CTL`: which format it is read in is the machine's state (30_encoding.md R119). -/

namespace Sys2Proof

/-- The formats of spec/opcode_table.json that carry an encoding. DEFLATE_HDR is read twice: as `HDR`, and as the block type it
latched; DEFLATE_DYN has three rows, F_CTL two fields. -/
inductive Format where
  /-- the 32-bit value written to `CMD` (30_encoding.md R100) -/
  | cmd
  /-- the 3-bit block header, bit 0 read first (30_encoding.md R102) -/
  | hdr
  /-- the same 3 bits, selecting the block body (41_inflate.md R179) -/
  | body
  /-- the 14 bits of the dynamic counts, bit 0 read first (30_encoding.md R105) -/
  | counts
  /-- one 3-bit meta code length (30_encoding.md R105) -/
  | metaLength
  /-- the code-length sequence: no bits of its own (41_inflate.md R188) -/
  | codeLengths
  /-- a symbol number of the meta alphabet (30_encoding.md R107) -/
  | cl
  /-- a symbol number of the literal/length alphabet (30_encoding.md R104) -/
  | ll
  /-- a symbol number of the distance alphabet (30_encoding.md R104) -/
  | d
  /-- a scanline's filter-type byte (30_encoding.md R113) -/
  | filter
  /-- the register `F_CTL`, field `BLEND` (10_state.md R31) -/
  | blend
  /-- the register `F_CTL`, field `DISPOSE` (10_state.md R31) -/
  | dispose
  deriving DecidableEq, Repr

/-- Why a value is no instruction of its format. -/
inductive DecodeError where
  /-- wider than the format's field -/
  | tooWide (f : Format) (w : Nat)
  /-- no symbol of the alphabet has this number (30_encoding.md R104, R107) -/
  | noSymbol (f : Format) (w : Nat)
  deriving DecidableEq, Repr

/-- Command words: only `OP` = bits [3:0] is decoded (30_encoding.md R100, 40_commands.md R141). -/
def decodeCmd (w : Nat) : Instr :=
  match w % 16 with
  | 0 => .nop
  | 1 => .clear
  | 2 => .inflate
  | 3 => .recon
  | 4 => .canvasInit
  | 5 => .compose
  | 8 => .hashEnc
  | 9 => .hashDec
  | 10 => .hashAvg
  | 11 => .hashAspect
  | 6 => .cmdReserved6To7 6
  | 7 => .cmdReserved6To7 7
  | op => .cmdReserved12To15 (BitVec.ofNat 4 op)

/-- The block body that `BTYPE` = bits [2:1] of the header selects (30_encoding.md R102, 41_inflate.md R179). -/
def decodeBody (w : Nat) : Instr :=
  match w / 2 % 4 with
  | 0 => .stored
  | 1 => .fixed
  | 2 => .dyn
  | _ => .btypeIllegal

/-- Meta symbols 0 to 18 (30_encoding.md R107). -/
def decodeCl (w : Nat) : Except DecodeError Instr :=
  if w < 16 then .ok (.cln (BitVec.ofNat 4 w))
  else match w with
  | 16 => .ok .cl16
  | 17 => .ok .cl17
  | 18 => .ok .cl18
  | _ => .error (.noSymbol .cl w)

/-- Literal/length symbols 0 to 287 (30_encoding.md R104). -/
def decodeLl (w : Nat) : Except DecodeError Instr :=
  if w < 256 then .ok (.lit (BitVec.ofNat 8 w))
  else match w with
  | 256 => .ok .eob
  | 257 => .ok .len257
  | 258 => .ok .len258
  | 259 => .ok .len259
  | 260 => .ok .len260
  | 261 => .ok .len261
  | 262 => .ok .len262
  | 263 => .ok .len263
  | 264 => .ok .len264
  | 265 => .ok .len265
  | 266 => .ok .len266
  | 267 => .ok .len267
  | 268 => .ok .len268
  | 269 => .ok .len269
  | 270 => .ok .len270
  | 271 => .ok .len271
  | 272 => .ok .len272
  | 273 => .ok .len273
  | 274 => .ok .len274
  | 275 => .ok .len275
  | 276 => .ok .len276
  | 277 => .ok .len277
  | 278 => .ok .len278
  | 279 => .ok .len279
  | 280 => .ok .len280
  | 281 => .ok .len281
  | 282 => .ok .len282
  | 283 => .ok .len283
  | 284 => .ok .len284
  | 285 => .ok .len285
  | 286 => .ok (.llIllegal286To287 286)
  | 287 => .ok (.llIllegal286To287 287)
  | _ => .error (.noSymbol .ll w)

/-- Distance symbols 0 to 31 (30_encoding.md R104). -/
def decodeD (w : Nat) : Except DecodeError Instr :=
  match w with
  | 0 => .ok .dist0
  | 1 => .ok .dist1
  | 2 => .ok .dist2
  | 3 => .ok .dist3
  | 4 => .ok .dist4
  | 5 => .ok .dist5
  | 6 => .ok .dist6
  | 7 => .ok .dist7
  | 8 => .ok .dist8
  | 9 => .ok .dist9
  | 10 => .ok .dist10
  | 11 => .ok .dist11
  | 12 => .ok .dist12
  | 13 => .ok .dist13
  | 14 => .ok .dist14
  | 15 => .ok .dist15
  | 16 => .ok .dist16
  | 17 => .ok .dist17
  | 18 => .ok .dist18
  | 19 => .ok .dist19
  | 20 => .ok .dist20
  | 21 => .ok .dist21
  | 22 => .ok .dist22
  | 23 => .ok .dist23
  | 24 => .ok .dist24
  | 25 => .ok .dist25
  | 26 => .ok .dist26
  | 27 => .ok .dist27
  | 28 => .ok .dist28
  | 29 => .ok .dist29
  | 30 => .ok (.dIllegal30To31 30)
  | 31 => .ok (.dIllegal30To31 31)
  | _ => .error (.noSymbol .d w)

/-- Filter-type bytes: all eight bits are significant (30_encoding.md R113, 42_scanline.md R252). -/
def decodeFilter (w : Nat) : Instr :=
  match w with
  | 0 => .filterNone
  | 1 => .filterSub
  | 2 => .filterUp
  | 3 => .filterAverage
  | 4 => .filterPaeth
  | ft => .filterIllegal (BitVec.ofNat 8 ft)

/-- Field `BLEND` = bits [5:4] of `F_CTL` (10_state.md R31, 44_compositor.md R307). -/
def decodeBlend (w : Nat) : Instr :=
  match w / 16 % 4 with
  | 0 => .blendSource
  | 1 => .blendOver
  | b => .blendReserved2To3 (BitVec.ofNat 2 b)

/-- Field `DISPOSE` = bits [1:0] of `F_CTL` (10_state.md R31, 44_compositor.md R307). -/
def decodeDispose (w : Nat) : Instr :=
  match w % 4 with
  | 0 => .disposeNone
  | 1 => .disposeClearToBackground
  | 2 => .disposeRestorePrevious
  | _ => .disposeReserved3

/-- The decoder: the instruction that the value `w` is in the format `f`. Total; a value that is no instruction of the format is
rejected by name. -/
def decode (f : Format) (w : Nat) : Except DecodeError Instr :=
  match f with
  | .cmd => if w < 2 ^ 32 then .ok (decodeCmd w) else .error (.tooWide .cmd w)
  | .hdr => if w < 8 then .ok (.hdr (BitVec.ofNat 1 w) (BitVec.ofNat 2 (w / 2))) else .error (.tooWide .hdr w)
  | .body => if w < 8 then .ok (decodeBody w) else .error (.tooWide .body w)
  | .counts =>
    if w < 2 ^ 14 then
      .ok (.dynCounts (BitVec.ofNat 5 w) (BitVec.ofNat 5 (w / 2 ^ 5)) (BitVec.ofNat 4 (w / 2 ^ 10)))
    else .error (.tooWide .counts w)
  | .metaLength => if w < 8 then .ok (.dynMetaLengths (BitVec.ofNat 3 w)) else .error (.tooWide .metaLength w)
  | .codeLengths => if w = 0 then .ok .dynCodeLengths else .error (.tooWide .codeLengths w)
  | .cl => decodeCl w
  | .ll => decodeLl w
  | .d => decodeD w
  | .filter => if w < 256 then .ok (decodeFilter w) else .error (.tooWide .filter w)
  | .blend => if w < 2 ^ 32 then .ok (decodeBlend w) else .error (.tooWide .blend w)
  | .dispose => if w < 2 ^ 32 then .ok (decodeDispose w) else .error (.tooWide .dispose w)

/-- The encoder: the format of an instruction and its value there, every bit no field names being 0. The three pseudo-commands
have no encoding (30_encoding.md R121). -/
def encode : Instr → Option (Format × Nat)
  | .nop => some (.cmd, 0)
  | .clear => some (.cmd, 1)
  | .inflate => some (.cmd, 2)
  | .recon => some (.cmd, 3)
  | .canvasInit => some (.cmd, 4)
  | .compose => some (.cmd, 5)
  | .hashEnc => some (.cmd, 8)
  | .hashDec => some (.cmd, 9)
  | .hashAvg => some (.cmd, 10)
  | .hashAspect => some (.cmd, 11)
  | .cmdReserved6To7 op => some (.cmd, op.toNat)
  | .cmdReserved12To15 op => some (.cmd, op.toNat)
  | .frame _ => none
  | .decodeStill _ => none
  | .decodeAnim _ => none
  | .hdr bfinal btype => some (.hdr, bfinal.toNat + 2 * btype.toNat)
  | .stored => some (.body, 0)
  | .fixed => some (.body, 2)
  | .dyn => some (.body, 4)
  | .btypeIllegal => some (.body, 6)
  | .dynCounts hlit hdist hclen => some (.counts, hlit.toNat + 2 ^ 5 * hdist.toNat + 2 ^ 10 * hclen.toNat)
  | .dynMetaLengths v => some (.metaLength, v.toNat)
  | .dynCodeLengths => some (.codeLengths, 0)
  | .cln n => some (.cl, n.toNat)
  | .cl16 => some (.cl, 16)
  | .cl17 => some (.cl, 17)
  | .cl18 => some (.cl, 18)
  | .lit b => some (.ll, b.toNat)
  | .eob => some (.ll, 256)
  | .len257 => some (.ll, 257)
  | .len258 => some (.ll, 258)
  | .len259 => some (.ll, 259)
  | .len260 => some (.ll, 260)
  | .len261 => some (.ll, 261)
  | .len262 => some (.ll, 262)
  | .len263 => some (.ll, 263)
  | .len264 => some (.ll, 264)
  | .len265 => some (.ll, 265)
  | .len266 => some (.ll, 266)
  | .len267 => some (.ll, 267)
  | .len268 => some (.ll, 268)
  | .len269 => some (.ll, 269)
  | .len270 => some (.ll, 270)
  | .len271 => some (.ll, 271)
  | .len272 => some (.ll, 272)
  | .len273 => some (.ll, 273)
  | .len274 => some (.ll, 274)
  | .len275 => some (.ll, 275)
  | .len276 => some (.ll, 276)
  | .len277 => some (.ll, 277)
  | .len278 => some (.ll, 278)
  | .len279 => some (.ll, 279)
  | .len280 => some (.ll, 280)
  | .len281 => some (.ll, 281)
  | .len282 => some (.ll, 282)
  | .len283 => some (.ll, 283)
  | .len284 => some (.ll, 284)
  | .len285 => some (.ll, 285)
  | .llIllegal286To287 s => some (.ll, s.toNat)
  | .dist0 => some (.d, 0)
  | .dist1 => some (.d, 1)
  | .dist2 => some (.d, 2)
  | .dist3 => some (.d, 3)
  | .dist4 => some (.d, 4)
  | .dist5 => some (.d, 5)
  | .dist6 => some (.d, 6)
  | .dist7 => some (.d, 7)
  | .dist8 => some (.d, 8)
  | .dist9 => some (.d, 9)
  | .dist10 => some (.d, 10)
  | .dist11 => some (.d, 11)
  | .dist12 => some (.d, 12)
  | .dist13 => some (.d, 13)
  | .dist14 => some (.d, 14)
  | .dist15 => some (.d, 15)
  | .dist16 => some (.d, 16)
  | .dist17 => some (.d, 17)
  | .dist18 => some (.d, 18)
  | .dist19 => some (.d, 19)
  | .dist20 => some (.d, 20)
  | .dist21 => some (.d, 21)
  | .dist22 => some (.d, 22)
  | .dist23 => some (.d, 23)
  | .dist24 => some (.d, 24)
  | .dist25 => some (.d, 25)
  | .dist26 => some (.d, 26)
  | .dist27 => some (.d, 27)
  | .dist28 => some (.d, 28)
  | .dist29 => some (.d, 29)
  | .dIllegal30To31 d => some (.d, d.toNat)
  | .filterNone => some (.filter, 0)
  | .filterSub => some (.filter, 1)
  | .filterUp => some (.filter, 2)
  | .filterAverage => some (.filter, 3)
  | .filterPaeth => some (.filter, 4)
  | .filterIllegal ft => some (.filter, ft.toNat)
  | .blendSource => some (.blend, 0x00)
  | .blendOver => some (.blend, 0x10)
  | .blendReserved2To3 b => some (.blend, 16 * b.toNat)
  | .disposeNone => some (.dispose, 0)
  | .disposeClearToBackground => some (.dispose, 1)
  | .disposeRestorePrevious => some (.dispose, 2)
  | .disposeReserved3 => some (.dispose, 3)

/-- The format in which a word of the opcode table is read when only its width in bits and its value are known. The table's rows
of different formats share words (0 is NOP, STORED, CLn, LIT, DIST_0, FILTER_NONE, ...); on the machine the state picks the format
(30_encoding.md R119). Here the first of the formats below that has a row whose `match` is this word, at this width, is taken
(DESIGN CHOICE, safe: log entry 14). -/
def tableFormat (nbits w : Nat) : Format :=
  if 16 < nbits then .cmd
  else if 8 < nbits then
    if 18 ≤ w && w < 32 then .d
    else if w < 288 then .ll
    else .counts
  else if w ∈ [0, 1, 2, 3, 4, 5, 6, 8, 9, 10, 11, 12] then .cmd
  else if w = 18 then .cl
  else if w < 32 then .d
  else if w = 32 then .blend
  else .filter

/-- The instruction the decoder reads from a word of the opcode table (the host's question, log entry 14). -/
def decodeTableWord (nbits w : Nat) : Option Instr :=
  match decode (tableFormat nbits w) w with
  | .ok i => some i
  | .error _ => none

end Sys2Proof
end

