-- ==== Sys2Proof/Machine/State.lean ====
section
/-! DEFINITION. The state of CORE as plain data (10_state.md R20): registers, phase and valid flags, the eight buffers, the Huffman
table RAMs and the transient state of the units, and beside them the model's own fields: the parameters, the host's pending
actions and what it has read. -/

namespace Sys2Proof.Machine

/-- A byte buffer's contents: the bytes written so far, addresses strictly rising. An unlisted address has no value of its own
here; `State.byteAt` reads it as a free value (log entry 7). -/
abbrev Memory := List Host.Cell

/-- The canonical form: addresses strictly rising, so that equal contents are equal lists. -/
abbrev Memory.wf (m : Memory) : Prop := m.Pairwise (fun x y => x.1 < y.1)

/-- The stored host-visible registers, 32 bits each (10_state.md R21 to R36). `CMD` stores nothing (R22) and `STATUS` is computed
from the phase and the valid flags (R23). -/
structure Regs where
  err : Word
  inLen : Word
  inOff : Word
  ipos : Word
  rawLen : Word
  rawCap : Word
  imgW : Word
  imgH : Word
  fmt : Word
  palN : Word
  trCtl : Word
  key0 : Word
  key1 : Word
  key2 : Word
  fX : Word
  fY : Word
  fW : Word
  fH : Word
  fCtl : Word
  hW : Word
  hH : Word
  outLen : Word
  outW : Word
  outH : Word
  res0 : Word
  res1 : Word
  res2 : Word
  res3 : Word
  frameCnt : Word
  tileW : Word
  tileH : Word
  canvasW : Word
  canvasH : Word
  deriving DecidableEq, Repr

/-- What the running unit decodes next: its place in the transient state of 10_state.md R40 to R42 (log entry 1). -/
inductive Await where
  /-- U1: a block header (41_inflate.md R180) -/
  | header
  /-- U1: the body that `BTYPE` selects (41_inflate.md R179) -/
  | body
  /-- U1: the three counts of a dynamic block (41_inflate.md R186) -/
  | counts
  /-- U1: a 3-bit meta code length (41_inflate.md R187) -/
  | metaLength
  /-- U1: the start of the code-length sequence (41_inflate.md R188) -/
  | codeLengths
  /-- U1: a meta symbol (41_inflate.md R188) -/
  | clSymbol
  /-- U1: a literal/length symbol (41_inflate.md R179) -/
  | llSymbol
  /-- U1: the distance symbol of a MATCH (41_inflate.md R198) -/
  | dSymbol
  /-- U2: a scanline's filter byte (42_scanline.md R240) -/
  | scanline
  /-- U4: the blend mode (44_compositor.md R291) -/
  | blend
  /-- U4: the dispose mode (44_compositor.md R291) -/
  | dispose
  deriving DecidableEq, Repr

/-- `STATUS.PHASE` (10_state.md R23), with what the running unit decodes next while BUSY. -/
inductive Phase where
  | idle
  | busy (next : Await)
  | done
  | fault
  deriving DecidableEq, Repr

/-- The six valid flags of `STATUS` (10_state.md R23). -/
structure ValidFlags where
  raw : Bool
  tile : Bool
  canvas : Bool
  save : Bool
  out : Bool
  res : Bool
  deriving DecidableEq, Repr

/-- The eight buffers (10_state.md R38). -/
structure Buffers where
  inp : Memory
  raw : Memory
  tile : Memory
  canvas : Memory
  save : Memory
  out : Memory
  pal : Memory
  trns : Memory
  deriving DecidableEq, Repr

/-- The table RAMs and the transient state of U1 (10_state.md R39, R40). -/
structure InflateUnit where
  /-- `BFINAL` -/
  bfinal : BitVec 1
  /-- `BTYPE` -/
  btype : BitVec 2
  /-- `HLIT` -/
  hlit : Nat
  /-- `HDIST` -/
  hdist : Nat
  /-- `HCLEN` -/
  hclen : Nat
  /-- index `i` of the next meta code length (41_inflate.md R187) -/
  metaIdx : Nat
  /-- `SEQ[0 .. k)`, the code lengths read so far (41_inflate.md R188) -/
  seq : List (BitVec 4)
  /-- `CL_LEN[0..18]` -/
  clLen : List (BitVec 3)
  /-- `LL_LEN[0..287]` -/
  llLen : List (BitVec 4)
  /-- `D_LEN[0..31]` -/
  dLen : List (BitVec 4)
  /-- remaining byte count `LEN` of a stored block -/
  storedLen : Nat
  /-- remaining `length` of a back-reference -/
  matchLen : Nat
  /-- `distance` of a back-reference -/
  matchDist : Nat
  deriving DecidableEq, Repr

/-- The transient state of U2 and U3 (10_state.md R41). -/
structure ReconUnit where
  /-- index into the pass list: pass number minus 1 -/
  passIdx : Nat
  /-- row within the pass -/
  row : Nat
  /-- read position in `RAW` -/
  pos : Nat
  /-- line buffer `CUR` -/
  cur : List Byte
  /-- line buffer `PRIOR` -/
  prior : List Byte
  deriving DecidableEq, Repr

/-- The buffers the host may write (10_state.md R38). -/
inductive HostWBuf where
  | inp | pal | trns
  deriving DecidableEq, Repr

/-- The buffers the host may read: all but `SAVE` (10_state.md R38). -/
inductive HostRBuf where
  | inp | raw | tile | canvas | out | pal | trns
  deriving DecidableEq, Repr

/-- One action of the host (10_state.md R21, R38; 30_encoding.md R120; 70_reset_and_hazards.md R410; log entry 4). -/
inductive HostOp where
  /-- write register number `n`; number 0 is `CMD` -/
  | writeReg (n : Nat) (v : Word)
  /-- read register number `n` -/
  | readReg (n : Nat)
  /-- write bytes into a buffer from index `i` -/
  | writeBuf (b : HostWBuf) (i : Nat) (bytes : List Byte)
  /-- read `n` bytes of a buffer from index `i` -/
  | readBuf (b : HostRBuf) (i n : Nat)
  /-- read `OUT[0 .. OUT_LEN)` (40_commands.md R155) -/
  | readOut
  /-- the reset input (70_reset_and_hazards.md R410) -/
  | reset
  /-- no access: time passes, a running unit makes one step -/
  | tick
  /-- drop the next `n` actions if `PHASE` is `FAULT` (40_commands.md R155: the sequence stops there) -/
  | stopIfFault (n : Nat)
  /-- pseudo-command FRAME (40_commands.md R155) -/
  | frame (a : FrameArgs)
  /-- pseudo-command DECODE_STILL (40_commands.md R156) -/
  | decodeStill (a : StillArgs)
  /-- pseudo-command DECODE_ANIM (40_commands.md R157) -/
  | decodeAnim (a : AnimArgs)
  deriving DecidableEq, Repr

/-- A pending action: an `early` one is taken at once, also while BUSY; any other waits for `PHASE` to leave `BUSY`, as the
notation of 30_encoding.md R120 has it. -/
structure HostItem where
  early : Bool
  op : HostOp
  deriving DecidableEq, Repr

/-- For each buffer that CORE writes and the host reads, how many commands that have it as a destination have started since reset: the
model's own note of when its unspecified bytes may have changed (20_memory.md R80, log entry 28). -/
structure Fills where
  raw : Nat
  tile : Nat
  canvas : Nat
  out : Nat
  deriving DecidableEq, Repr

/-- One thing the host has read (log entry 4). -/
inductive HostRead where
  | reg (n : Nat) (v : Word)
  | bytes (b : HostRBuf) (i : Nat) (data : List Byte)
  deriving DecidableEq, Repr

/-- The state of CORE. -/
structure State where
  /-- the implementation's parameters, never written (log entry 6) -/
  params : Params
  regs : Regs
  phase : Phase
  valid : ValidFlags
  buf : Buffers
  u1 : InflateUnit
  u2 : ReconUnit
  /-- the host's pending actions, first to be taken first (log entry 4) -/
  script : List HostItem
  /-- what the host has read, oldest first (log entry 4) -/
  hostLog : List HostRead
  /-- how many free values have been handed out (log entry 8) -/
  freeCtr : Nat
  /-- how many resets have happened (log entry 7) -/
  epoch : Nat
  /-- no command has left a result register unspecified since reset (log entry 9) -/
  pristine : Bool
  /-- how many commands have begun to fill each buffer the host reads (log entry 28) -/
  fills : Fills
  /-- no fault has ended INFLATE since `IPOS` last had a specified value (10_state.md R36, log entry 19) -/
  iposKnown : Bool
  deriving DecidableEq, Repr

/-- Reasons for which the MODEL stops. A fault of CORE is not one of these: it is a next state (60_exceptions.md R390). -/
inductive Fault where
  /-- Raised by the host's buffer accesses in Machine/Ops.lean: an index at or beyond the buffer's capacity names no byte
  (20_memory.md R70). Safe: the model stops where the spec gives no byte (log entry 15). -/
  | noSuchByte
  deriving DecidableEq, Repr

/-- Reasons for which the model gives an instruction no meaning. -/
inductive Refusal where
  /-- Raised by `exec` for an instruction that has no meaning yet. Safe. No arm raises it. -/
  | notModelled (mnemonic : String)
  /-- Raised by `step` when a value is no element of the format the running unit decodes; no reachable state does this, since a
  symbol comes from a table of its alphabet's size. Safe (log entry 13). -/
  | notAnElement (e : DecodeError)
  deriving DecidableEq, Repr

/-- Registers after reset: 0, except `RAW_CAP` (10_state.md R46). -/
def Regs.reset (p : Params) : Regs where
  err := 0
  inLen := 0
  inOff := 0
  ipos := 0
  rawLen := 0
  rawCap := BitVec.ofNat 32 p.rawInitCap
  imgW := 0
  imgH := 0
  fmt := 0
  palN := 0
  trCtl := 0
  key0 := 0
  key1 := 0
  key2 := 0
  fX := 0
  fY := 0
  fW := 0
  fH := 0
  fCtl := 0
  hW := 0
  hH := 0
  outLen := 0
  outW := 0
  outH := 0
  res0 := 0
  res1 := 0
  res2 := 0
  res3 := 0
  frameCnt := 0
  tileW := 0
  tileH := 0
  canvasW := 0
  canvasH := 0

/-- All six valid flags 0 (10_state.md R46, 40_commands.md R146). -/
def ValidFlags.none : ValidFlags :=
  { raw := false, tile := false, canvas := false, save := false, out := false, res := false }

/-- Nothing written (10_state.md R46). -/
def Buffers.empty : Buffers :=
  { inp := [], raw := [], tile := [], canvas := [], save := [], out := [], pal := [], trns := [] }

/-- U1's RAMs and transient state after reset (DESIGN CHOICE, unsafe: log entry 10). -/
def InflateUnit.reset : InflateUnit where
  bfinal := 0
  btype := 0
  hlit := 0
  hdist := 0
  hclen := 0
  metaIdx := 0
  seq := []
  clLen := List.replicate 19 0
  llLen := List.replicate 288 0
  dLen := List.replicate 32 0
  storedLen := 0
  matchLen := 0
  matchDist := 0

/-- U2's and U3's transient state after reset (DESIGN CHOICE, unsafe: log entry 10). -/
def ReconUnit.reset : ReconUnit := { passIdx := 0, row := 0, pos := 0, cur := [], prior := [] }

/-- The machine right after reset, for an implementation with parameters `p` (10_state.md R46, 70_reset_and_hazards.md R410). -/
def State.resetWith (p : Params) : State where
  params := p
  regs := Regs.reset p
  phase := .idle
  valid := ValidFlags.none
  buf := Buffers.empty
  u1 := InflateUnit.reset
  u2 := ReconUnit.reset
  script := []
  hostLog := []
  freeCtr := 0
  epoch := 0
  pristine := true
  fills := { raw := 0, tile := 0, canvas := 0, out := 0 }
  iposKnown := true

/-- The machine right after reset (10_state.md R46). -/
def State.reset : State := State.resetWith Params.default

end Sys2Proof.Machine
end

