-- ==== Sys2Proof/Machine/Flags.lean ====
section
/-! DEFINITION. The flags of CORE: `PHASE` and the six valid flags, the `STATUS` word they make, and setting and clearing a
command's destination flags (10_state.md R23, R37, 40_commands.md R143). CORE has no arithmetic condition codes. -/

namespace Sys2Proof.Machine

/-- Field `PHASE` of `STATUS` (10_state.md R23). -/
def Phase.code : Phase → Nat
  | .idle => 0
  | .busy _ => 1
  | .done => 2
  | .fault => 3

/-- `PHASE` is `BUSY`. -/
def Phase.isBusy : Phase → Bool
  | .busy _ => true
  | .idle => false
  | .done => false
  | .fault => false

/-- `STATUS` as the host reads it (10_state.md R23): `PHASE` in bits [1:0], the valid flags in bits 4 to 9, every other bit 0. -/
def State.statusWord (s : State) : Word :=
  BitVec.ofNat 32 (s.phase.code + 2 ^ 4 * s.valid.raw.toNat + 2 ^ 5 * s.valid.tile.toNat + 2 ^ 6 * s.valid.canvas.toNat +
    2 ^ 7 * s.valid.save.toNat + 2 ^ 8 * s.valid.out.toNat + 2 ^ 9 * s.valid.res.toNat)

/-- A destination that a valid flag guards (40_commands.md R143). -/
inductive Dest where
  | raw | tile | canvas | save | out | res
  deriving DecidableEq, Repr

/-- The valid flag of a destination. -/
def ValidFlags.get (v : ValidFlags) : Dest → Bool
  | .raw => v.raw
  | .tile => v.tile
  | .canvas => v.canvas
  | .save => v.save
  | .out => v.out
  | .res => v.res

/-- One valid flag written. -/
def ValidFlags.put (v : ValidFlags) (d : Dest) (b : Bool) : ValidFlags :=
  match d with
  | .raw => { v with raw := b }
  | .tile => { v with tile := b }
  | .canvas => { v with canvas := b }
  | .save => { v with save := b }
  | .out => { v with out := b }
  | .res => { v with res := b }

/-- Write one valid flag of the machine. -/
def State.setValid (s : State) (d : Dest) (b : Bool) : State := { s with valid := s.valid.put d b }

/-- Write `PHASE`. -/
def State.setPhase (s : State) (p : Phase) : State := { s with phase := p }

/-- One more command begins to fill a destination. -/
def Fills.bump (f : Fills) (d : Dest) : Fills :=
  match d with
  | .raw => { f with raw := f.raw + 1 }
  | .tile => { f with tile := f.tile + 1 }
  | .canvas => { f with canvas := f.canvas + 1 }
  | .save => f
  | .out => { f with out := f.out + 1 }
  | .res => f

/-- Start of an admitted command with one destination: its flag is cleared (40_commands.md R140, R143). From here on a result
register whose flag is 0 is unspecified to the host (10_state.md R35, log entry 9), and so are the destination's bytes, anew (R38, log
entry 28). -/
def State.openDest (s : State) (d : Dest) : State := { s.setValid d false with pristine := false, fills := s.fills.bump d }

/-- Completion of a command with one destination: its flag is set and `PHASE` becomes `DONE` (40_commands.md R140, R143). -/
def State.complete (s : State) (d : Dest) : State := (s.setValid d true).setPhase .done

end Sys2Proof.Machine
end

