-- ==== Sys2Proof/Machine/Ops.lean ====
section
/-! DEFINITION. The named operations every meaning is written over: buffer bytes, registers by number, taking a fault and leaving
it, starting a command, and the host's accesses. -/

namespace Sys2Proof.Machine

/-! ### Buffers (20_memory.md R70, R71) -/

/-- The byte listed at an address, if any. -/
def Memory.read (m : Memory) (a : Nat) : Option Byte := (m.find? (fun c => c.1 == a)).map (·.2)

/-- Bytes laid out from address `a` upward. -/
def Memory.cells (a : Nat) : List Byte → Memory
  | [] => []
  | b :: bs => (a, b) :: Memory.cells (a + 1) bs

/-- `MemWrite`: the bytes are stored from address `a` upward (20_memory.md R71); the form stays canonical. -/
def Memory.write (m : Memory) (a : Nat) (bs : List Byte) : Memory :=
  m.filter (fun c => c.1 < a) ++ Memory.cells a bs ++ m.filter (fun c => a + bs.length ≤ c.1)

/-- The contents of one buffer. -/
def Buffers.get (b : Buffers) : Buf → Memory
  | .inp => b.inp
  | .raw => b.raw
  | .tile => b.tile
  | .canvas => b.canvas
  | .save => b.save
  | .out => b.out
  | .pal => b.pal
  | .trns => b.trns

/-- One buffer replaced. -/
def Buffers.put (b : Buffers) (k : Buf) (m : Memory) : Buffers :=
  match k with
  | .inp => { b with inp := m }
  | .raw => { b with raw := m }
  | .tile => { b with tile := m }
  | .canvas => { b with canvas := m }
  | .save => { b with save := m }
  | .out => { b with out := m }
  | .pal => { b with pal := m }
  | .trns => { b with trns := m }

/-- `BUF[i]`: the last byte written there (10_state.md R47); a free value where nothing has been written since reset
(10_state.md R46, log entry 7). -/
def State.byteAt (s : State) (b : Buf) (i : Nat) : Byte :=
  (Memory.read (s.buf.get b) i).getD (Config.unwrittenByte s.epoch b i)

/-- `MemRead(BUF, i, n)` (20_memory.md R71). -/
def State.bytesAt (s : State) (b : Buf) (i n : Nat) : List Byte := (List.range n).map (fun k => s.byteAt b (i + k))

/-- `MemWrite(BUF, i, n, bytes)` (20_memory.md R71). -/
def State.writeBytes (s : State) (b : Buf) (i : Nat) (bytes : List Byte) : State :=
  { s with buf := s.buf.put b (Memory.write (s.buf.get b) i bytes) }

/-! ### Registers (10_state.md R21) -/

/-- A natural number as a register value. Every rule that writes a register keeps the value below 2^32 first
(00_scope.md R6, log entry 16). -/
def reg (n : Nat) : Word := BitVec.ofNat 32 n

/-- Register number `n` as it stands: `CMD` reads 0, and so do the reserved numbers (10_state.md R21, R22). -/
def State.regAt (s : State) (n : Nat) : Word :=
  match n with
  | 0x01 => s.statusWord
  | 0x02 => s.regs.err
  | 0x03 => s.regs.inLen
  | 0x04 => s.regs.inOff
  | 0x05 => s.regs.ipos
  | 0x06 => s.regs.rawLen
  | 0x07 => s.regs.rawCap
  | 0x08 => s.regs.imgW
  | 0x09 => s.regs.imgH
  | 0x0A => s.regs.fmt
  | 0x0B => s.regs.palN
  | 0x0C => s.regs.trCtl
  | 0x0D => s.regs.key0
  | 0x0E => s.regs.key1
  | 0x0F => s.regs.key2
  | 0x10 => s.regs.fX
  | 0x11 => s.regs.fY
  | 0x12 => s.regs.fW
  | 0x13 => s.regs.fH
  | 0x14 => s.regs.fCtl
  | 0x15 => s.regs.hW
  | 0x16 => s.regs.hH
  | 0x17 => s.regs.outLen
  | 0x18 => s.regs.outW
  | 0x19 => s.regs.outH
  | 0x1A => s.regs.res0
  | 0x1B => s.regs.res1
  | 0x1C => s.regs.res2
  | 0x1D => s.regs.res3
  | 0x1E => s.regs.frameCnt
  | 0x1F => s.regs.tileW
  | 0x20 => s.regs.tileH
  | 0x21 => s.regs.canvasW
  | 0x22 => s.regs.canvasH
  | _ => 0

/-- An `RW` register stores the value as written, legal or not; a write to an `RO` register or a reserved number is ignored
(10_state.md R21). -/
def Regs.write (r : Regs) (n : Nat) (v : Word) : Regs :=
  match n with
  | 0x03 => { r with inLen := v }
  | 0x04 => { r with inOff := v }
  | 0x08 => { r with imgW := v }
  | 0x09 => { r with imgH := v }
  | 0x0A => { r with fmt := v }
  | 0x0B => { r with palN := v }
  | 0x0C => { r with trCtl := v }
  | 0x0D => { r with key0 := v }
  | 0x0E => { r with key1 := v }
  | 0x0F => { r with key2 := v }
  | 0x10 => { r with fX := v }
  | 0x11 => { r with fY := v }
  | 0x12 => { r with fW := v }
  | 0x13 => { r with fH := v }
  | 0x14 => { r with fCtl := v }
  | 0x15 => { r with hW := v }
  | 0x16 => { r with hH := v }
  | _ => r

/-- The valid flag that guards a result register (10_state.md R35). -/
def regGuard (n : Nat) : Option Dest :=
  match n with
  | 0x06 => some .raw
  | 0x07 => some .raw
  | 0x17 => some .out
  | 0x18 => some .out
  | 0x19 => some .out
  | 0x1A => some .res
  | 0x1B => some .res
  | 0x1C => some .res
  | 0x1D => some .res
  | 0x1E => some .canvas
  | 0x1F => some .tile
  | 0x20 => some .tile
  | 0x21 => some .canvas
  | 0x22 => some .canvas
  | _ => none

/-- A register holds a specified value. `IPOS` does unless a fault has ended INFLATE (10_state.md R36, log entry 19); a result
register does if its flag is 1 or nothing has left it unspecified since reset (R35, R46, log entry 9); any other always does. -/
def State.regSpecified (s : State) (n : Nat) : Bool :=
  if n = 0x05 then s.iposKnown
  else s.pristine || (match regGuard n with
    | some d => s.valid.get d
    | none => true)

/-! ### Taking a fault and leaving it (60_exceptions.md R390, R391) -/

/-- The units of `ERR.UNIT` (10_state.md R34). -/
inductive UnitId where
  | sequencer | inflate | scanline | deinterlace | compositor | dct
  deriving DecidableEq, Repr

/-- `ERR.UNIT` codes (10_state.md R34). -/
def UnitId.code : UnitId → Nat
  | .sequencer => 0
  | .inflate => 1
  | .scanline => 2
  | .deinterlace => 3
  | .compositor => 4
  | .dct => 5

/-- Every class and cause CORE raises (60_exceptions.md R382 to R388). -/
inductive FaultCode where
  | badPairing
  | badBtype | noCode | distanceTooFar | badLengthSymbol | badDistanceSymbol | inputExhausted | oversubscribed
  | repeatNoPrev | repeatOverrun
  | hashDim
  | badFilterType | shortImageData | paletteIndexRange
  | hashShort | hashGridZero
  | badOpcode | bufferNotValid | paramRange | frameRectRange | badMode | tileMismatch
  | rawOverflow
  deriving DecidableEq, Repr

/-- `ERR.CLASS` (60_exceptions.md R380). -/
def FaultCode.cls : FaultCode → Nat
  | .badPairing => 2
  | .badBtype => 3
  | .noCode => 3
  | .distanceTooFar => 3
  | .badLengthSymbol => 3
  | .badDistanceSymbol => 3
  | .inputExhausted => 3
  | .oversubscribed => 3
  | .repeatNoPrev => 3
  | .repeatOverrun => 3
  | .hashDim => 4
  | .badFilterType => 5
  | .shortImageData => 5
  | .paletteIndexRange => 5
  | .hashShort => 6
  | .hashGridZero => 6
  | .badOpcode => 7
  | .bufferNotValid => 7
  | .paramRange => 7
  | .frameRectRange => 7
  | .badMode => 7
  | .tileMismatch => 7
  | .rawOverflow => 8

/-- `ERR.CAUSE` (60_exceptions.md R382 to R388). -/
def FaultCode.cause : FaultCode → Nat
  | .badPairing => 1
  | .badBtype => 1
  | .noCode => 2
  | .distanceTooFar => 3
  | .badLengthSymbol => 4
  | .badDistanceSymbol => 5
  | .inputExhausted => 6
  | .oversubscribed => 7
  | .repeatNoPrev => 8
  | .repeatOverrun => 9
  | .hashDim => 1
  | .badFilterType => 1
  | .shortImageData => 2
  | .paletteIndexRange => 3
  | .hashShort => 1
  | .hashGridZero => 2
  | .badOpcode => 1
  | .bufferNotValid => 2
  | .paramRange => 3
  | .frameRectRange => 4
  | .badMode => 5
  | .tileMismatch => 7
  | .rawOverflow => 1

/-- `ERR` for a fault (60_exceptions.md R389). -/
def errWord (f : FaultCode) (u : UnitId) : Word := reg (f.cls + 256 * f.cause + 65536 * u.code)

/-- `raise Class(CAUSE)`: fault entry (60_exceptions.md R390). `ERR` and `PHASE` are written and the command ends; nothing else
is written. -/
def State.raise (s : State) (f : FaultCode) (u : UnitId) : State :=
  { s with regs := { s.regs with err := errWord f u }, phase := .fault }

/-- `CLEAR`, the way out of FAULT (40_commands.md R146, 60_exceptions.md R391): `PHASE` becomes IDLE, `ERR` 0, every valid flag 0. -/
def State.clear (s : State) : State :=
  { s with regs := { s.regs with err := 0 }, phase := .idle, valid := ValidFlags.none, pristine := false }

/-- Outcome of a unit operation that may raise. -/
inductive Res (α : Type) where
  /-- it answers `a`, in the state `s` -/
  | ok (a : α) (s : State)
  /-- it raised: `s` is the state after fault entry -/
  | raised (s : State)

/-- Sequence two unit operations: a raised fault ends the command (60_exceptions.md R390). -/
def Res.bind {α β : Type} (r : Res α) (k : α → State → Res β) : Res β :=
  match r with
  | .ok a s => k a s
  | .raised s => .raised s

/-- The state a finished unit operation leaves: raising is a next state of the machine. -/
def Res.outcome (r : Res Unit) : Host.Outcome State Fault Refusal :=
  match r with
  | .ok _ s => .next s
  | .raised s => .next s

/-! ### Commands (40_commands.md R140) -/

/-- The sequencer on a `CMD` write of any command but CLEAR (40_commands.md R140): ignored in BUSY and FAULT; in IDLE and DONE the
first admission check that fails is raised, with nothing else changed (R142), and an admitted command runs. -/
def State.command (s : State) (admission : Option (FaultCode × UnitId)) (run : Unit → State) :
    Host.Outcome State Fault Refusal :=
  match s.phase with
  | .busy _ => .next s
  | .fault => .next s
  | .idle => match admission with
    | some (f, u) => .next (s.raise f u)
    | none => .next (run ())
  | .done => match admission with
    | some (f, u) => .next (s.raise f u)
    | none => .next (run ())

/-- The first of a list of admission checks that fails (40_commands.md R142): each check is a condition that must hold and the
fault it raises otherwise. -/
def firstFailing (u : UnitId) : List (Bool × FaultCode) → Option (FaultCode × UnitId)
  | [] => none
  | (ok, f) :: rest => if ok then firstFailing u rest else some (f, u)

/-! ### The host's accesses (10_state.md R21, 20_memory.md R82) -/

/-- Which buffer a host write names (10_state.md R38). -/
def HostWBuf.buf : HostWBuf → Buf
  | .inp => .inp
  | .pal => .pal
  | .trns => .trns

/-- Which buffer a host read names (10_state.md R38). -/
def HostRBuf.buf : HostRBuf → Buf
  | .inp => .inp
  | .raw => .raw
  | .tile => .tile
  | .canvas => .canvas
  | .out => .out
  | .pal => .pal
  | .trns => .trns

/-- Byte `i` of a buffer has a specified value for the host: it is host-written, or its flag is 1 and the index is below the
buffer's logical length (10_state.md R38). -/
def State.byteSpecified (s : State) (b : HostRBuf) (i : Nat) : Bool :=
  match b with
  | .inp => true
  | .pal => true
  | .trns => true
  | .raw => s.valid.raw && i < s.regs.rawLen.toNat
  | .tile => s.valid.tile && i < 4 * s.regs.tileW.toNat * s.regs.tileH.toNat
  | .canvas => s.valid.canvas && i < 4 * s.regs.canvasW.toNat * s.regs.canvasH.toNat
  | .out => s.valid.out && i < s.regs.outLen.toNat

/-- The free value number `freeCtr`, which moves on (log entry 8). -/
def State.freeWord (s : State) : Word × State := (Config.freeWord s.freeCtr, { s with freeCtr := s.freeCtr + 1 })

/-- The value a host read of register `n` returns: while BUSY only `STATUS` has one (20_memory.md R82), and otherwise every register
that holds a specified value; else a free value. -/
def State.hostReadReg (s : State) (n : Nat) : Word × State :=
  if n = 0x01 then (s.statusWord, s)
  else if s.phase.isBusy || !s.regSpecified n then s.freeWord
  else (s.regAt n, s)

/-- How many commands have begun to fill a buffer since reset; the host-written buffers are filled by none. -/
def Fills.get (f : Fills) (b : HostRBuf) : Nat :=
  match b with
  | .inp => 0
  | .pal => 0
  | .trns => 0
  | .raw => f.raw
  | .tile => f.tile
  | .canvas => f.canvas
  | .out => f.out

/-- What the host reads at byte `i` of a buffer outside BUSY: the byte if it has a specified value (10_state.md R38), else a free value
that stays until a command fills the buffer anew (20_memory.md R80, log entry 28). -/
def State.hostByte (s : State) (b : HostRBuf) (i : Nat) : Byte :=
  if s.byteSpecified b i then s.byteAt b.buf i else Config.unspecifiedByte s.epoch (s.fills.get b) b.buf i

/-- The bytes a host read of `n` bytes from index `i` returns. Outside BUSY the read changes nothing and every location is idempotent to
read (20_memory.md R80); while BUSY each byte is the low byte of a free value of its own (R82, log entry 8). -/
def State.hostReadBytes (s : State) (b : HostRBuf) (i n : Nat) : List Byte × State :=
  if s.phase.isBusy then
    ((List.range n).map (fun k => (Config.freeWord (s.freeCtr + k)).setWidth 8), { s with freeCtr := s.freeCtr + n })
  else ((List.range n).map (fun k => s.hostByte b (i + k)), s)

/-- Append to what the host has read. -/
def State.logRead (s : State) (r : HostRead) : State := { s with hostLog := s.hostLog ++ [r] }

/-- Host register read. -/
def State.doReadReg (s : State) (n : Nat) : State := (s.hostReadReg n).2.logRead (.reg n (s.hostReadReg n).1)

/-- Host buffer read (10_state.md R38). While BUSY every read returns unspecified values, wherever it points (20_memory.md R82);
otherwise an index at or beyond the capacity names no byte (log entry 15). -/
def State.doReadBuf (s : State) (b : HostRBuf) (i n : Nat) : Host.Outcome State Fault Refusal :=
  if s.phase.isBusy || i + n ≤ s.params.capacity b.buf then
    .next ((s.hostReadBytes b i n).2.logRead (.bytes b i (s.hostReadBytes b i n).1))
  else .fault .noSuchByte

/-- Host read of `OUT[0 .. OUT_LEN)` (40_commands.md R155): the length is what a read of `OUT_LEN` returns. -/
def State.doReadOut (s : State) : Host.Outcome State Fault Refusal :=
  (s.hostReadReg 0x17).2.doReadBuf .out 0 (s.hostReadReg 0x17).1.toNat

/-- Host write of a register other than `CMD`: ignored while BUSY (20_memory.md R82). -/
def State.doWriteReg (s : State) (n : Nat) (v : Word) : State :=
  if s.phase.isBusy then s else { s with regs := s.regs.write n v }

/-- Host buffer write: ignored while BUSY (20_memory.md R82). An index at or beyond the capacity names no byte (log entry 15). -/
def State.doWriteBuf (s : State) (b : HostWBuf) (i : Nat) (bytes : List Byte) : Host.Outcome State Fault Refusal :=
  if s.phase.isBusy then .next s
  else if i + bytes.length ≤ s.params.capacity b.buf then .next (s.writeBytes b.buf i bytes)
  else .fault .noSuchByte

/-- The reset input (70_reset_and_hazards.md R410): everything of CORE as after reset, whatever it was doing; the host's own
queue and log, and the parameters, stay. The contents of the buffers are unspecified anew: `epoch` moves on (log entry 7). -/
def State.doReset (s : State) : State :=
  { State.resetWith s.params with
    script := s.script, hostLog := s.hostLog, freeCtr := s.freeCtr, epoch := s.epoch + 1 }

/-- The rest of a pseudo-command is dropped when a command has ended in FAULT (40_commands.md R155). -/
def State.doStopIfFault (s : State) (n : Nat) : State :=
  if s.phase = .fault then { s with script := s.script.drop n } else s

end Sys2Proof.Machine
end

