-- ==== Sys2Proof/Machine/Operands.lean ====
section
/-! DEFINITION. Every operand form: the fields of the format and mode registers (10_state.md R26 to R31), the bit reader of U1
(41_inflate.md R170 to R173), the payload of the hash commands and the fields of a spectral hash (30_encoding.md R115), pixels and
samples (42_scanline.md R253, R254). -/

namespace Sys2Proof.Machine

/-! ### Register fields -/

/-- Bits `[hi:lo]` of a register as an unsigned number (00_scope.md R6). -/
def field (w : Word) (hi lo : Nat) : Nat := w.toNat / 2 ^ lo % 2 ^ (hi + 1 - lo)

/-- `FMT.BITDEPTH` (10_state.md R26). -/
def State.bitDepth (s : State) : Nat := field s.regs.fmt 4 0

/-- `FMT.COLORTYPE` (10_state.md R26). -/
def State.colorType (s : State) : Nat := field s.regs.fmt 10 8

/-- `FMT.INTERLACED` (10_state.md R26). -/
def State.interlaced (s : State) : Bool := field s.regs.fmt 16 16 == 1

/-- `TR_CTL.TR_MODE` (10_state.md R28). -/
def State.trMode (s : State) : Nat := field s.regs.trCtl 1 0

/-- `TR_CTL.TR_N` (10_state.md R28). -/
def State.trN (s : State) : Nat := field s.regs.trCtl 16 8

/-- `KEY[15:0]` of a colour-key register (10_state.md R29). -/
def keySample (w : Word) : Nat := field w 15 0

/-- `F_CTL.BLEND` (10_state.md R31). -/
def State.blendMode (s : State) : Nat := field s.regs.fCtl 5 4

/-- `F_CTL.DISPOSE` (10_state.md R31). -/
def State.disposeMode (s : State) : Nat := field s.regs.fCtl 1 0

/-! ### The bit reader of U1 -/

/-- `raise` of unit U1. -/
def State.raiseU1 (s : State) (f : FaultCode) : State := s.raise f .inflate

/-- `getbit()` (41_inflate.md R170): bit `IPOS mod 8` of byte `IN[IPOS div 8]` (20_memory.md R72). -/
def State.getbit (s : State) : Res Nat :=
  if 8 * s.regs.inLen.toNat ≤ s.regs.ipos.toNat then .raised (s.raiseU1 .inputExhausted)
  else .ok ((s.byteAt .inp (s.regs.ipos.toNat / 8)).toNat / 2 ^ (s.regs.ipos.toNat % 8) % 2)
    { s with regs := { s.regs with ipos := reg (s.regs.ipos.toNat + 1) } }

/-- `getbits(n)` (41_inflate.md R171): the first bit read is bit 0 of the result (20_memory.md R73). -/
def State.getbits (s : State) : (n : Nat) → Res Nat
  | 0 => .ok 0 s
  | n + 1 => s.getbit.bind fun b s => (s.getbits n).bind fun v s => .ok (b + 2 * v) s

/-- `align()` (41_inflate.md R172): `IPOS` up to the next multiple of 8. -/
def State.align (s : State) : State :=
  { s with regs := { s.regs with ipos := reg (8 * ((s.regs.ipos.toNat + 7) / 8)) } }

/-- `getbyte()` (41_inflate.md R173). -/
def State.getbyte (s : State) : Res Nat := s.getbits 8

/-- Two `getbyte()`s as a 16-bit number, low byte first (20_memory.md R74). -/
def State.getLe16 (s : State) : Res Nat :=
  s.getbyte.bind fun lo s => s.getbyte.bind fun hi s => .ok (lo + 256 * hi) s

/-! ### The payload of the hash commands -/

/-- `IN_OFF <= IN_LEN <= IN_MAX` (10_state.md R24). -/
def State.payloadInRange (s : State) : Bool :=
  s.regs.inOff.toNat ≤ s.regs.inLen.toNat && s.regs.inLen.toNat ≤ s.params.inMax

/-- Payload length `n = IN_LEN - IN_OFF` (40_commands.md R152). -/
def State.payloadLen (s : State) : Nat := s.regs.inLen.toNat - s.regs.inOff.toNat

/-- Payload byte `H[i] = IN[IN_OFF + i]`. -/
def State.payloadByte (s : State) (i : Nat) : Nat := (s.byteAt .inp (s.regs.inOff.toNat + i)).toNat

/-- The header fields of a spectral hash (30_encoding.md R115). -/
structure HashHeader where
  lDc : Nat
  pDc : Nat
  qDc : Nat
  lScale : Nat
  hasAlpha : Bool
  grid : Nat
  pScale : Nat
  qScale : Nat
  isLandscape : Bool
  deriving DecidableEq, Repr

/-- The header fields as `header24` and `header16` hold them (30_encoding.md R115). -/
def hashHeader (header24 header16 : Nat) : HashHeader where
  lDc := header24 % 2 ^ 6
  pDc := header24 / 2 ^ 6 % 2 ^ 6
  qDc := header24 / 2 ^ 12 % 2 ^ 6
  lScale := header24 / 2 ^ 18 % 2 ^ 5
  hasAlpha := header24 / 2 ^ 23 % 2 == 1
  grid := header16 % 2 ^ 3
  pScale := header16 / 2 ^ 3 % 2 ^ 6
  qScale := header16 / 2 ^ 9 % 2 ^ 6
  isLandscape := header16 / 2 ^ 15 % 2 == 1

/-- `header24` of the payload, little-endian (20_memory.md R76). -/
def State.header24 (s : State) : Nat := s.payloadByte 0 + 256 * s.payloadByte 1 + 65536 * s.payloadByte 2

/-- `header16` of the payload, little-endian (20_memory.md R76). -/
def State.header16 (s : State) : Nat := s.payloadByte 3 + 256 * s.payloadByte 4

/-- The header of the payload read as a hash. -/
def State.header (s : State) : HashHeader := hashHeader s.header24 s.header16

/-- `cap` (45_dct_hash.md R341). -/
def gridCap (hasAlpha : Bool) : Nat := if hasAlpha then 5 else 7

/-- `lx` of the header, un-maxed (45_dct_hash.md R341). -/
def HashHeader.lx (h : HashHeader) : Nat := if h.isLandscape then gridCap h.hasAlpha else h.grid

/-- `ly` of the header, un-maxed (45_dct_hash.md R341). -/
def HashHeader.ly (h : HashHeader) : Nat := if h.isLandscape then h.grid else gridCap h.hasAlpha

/-! ### Samples (42_scanline.md R253, R254) -/

/-- `samp(CUR, k)` at bit depth `d` (42_scanline.md R253). -/
def samp (d : Nat) (cur : List Byte) (k : Nat) : Nat :=
  if d = 8 then (cur.getD k 0).toNat
  else if d = 16 then 256 * (cur.getD (2 * k) 0).toNat + (cur.getD (2 * k + 1) 0).toNat
  else (cur.getD (k / (8 / d)) 0).toNat / 2 ^ (8 - d * (k % (8 / d) + 1)) % 2 ^ d

/-- `to8(v)` at bit depth `d` (42_scanline.md R254). -/
def to8 (d v : Nat) : Byte :=
  BitVec.ofNat 8 (
    match d with
    | 16 => v / 256
    | 8 => v
    | 4 => 17 * v
    | 2 => 85 * v
    | _ => 255 * v)

/-- One RGBA pixel, four bytes (20_memory.md R77). -/
structure Pixel where
  r : Byte
  g : Byte
  b : Byte
  a : Byte
  deriving DecidableEq, Repr

/-- The four bytes of a pixel in buffer order (20_memory.md R77). -/
def Pixel.bytes (p : Pixel) : List Byte := [p.r, p.g, p.b, p.a]

/-- Transparent black (44_compositor.md R290). -/
def Pixel.zero : Pixel := { r := 0, g := 0, b := 0, a := 0 }

/-- The pixel whose bytes start at index `o` of a buffer. -/
def State.pixelAt (s : State) (b : Buf) (o : Nat) : Pixel where
  r := s.byteAt b o
  g := s.byteAt b (o + 1)
  b := s.byteAt b (o + 2)
  a := s.byteAt b (o + 3)

end Sys2Proof.Machine
end

