-- ==== Sys2Proof/Machine/Huffman.lean ====
section
/-! DEFINITION. Canonical Huffman tables (41_inflate.md R177, R178): the Kraft check and the code assignment of `build`, the
bit-serial `decode`, and the code of a symbol as the bits an encoder would write. A table is its code-length list
(10_state.md R39), here as natural numbers. -/

namespace Sys2Proof.Machine

/-- `sum over b of count[b] * 2^(15 - b)`: the Kraft sum of the coded symbols, times 2^15 (41_inflate.md R177). -/
def kraft (t : List Nat) : Nat := (t.map (fun l => if l = 0 then 0 else 2 ^ (15 - l))).sum

/-- `build` raises OVERSUBSCRIBED (41_inflate.md R177). -/
def oversubscribed (t : List Nat) : Bool := 2 ^ 15 < kraft t

/-- `count[b]` with `count[0] = 0` (41_inflate.md R177). -/
def lengthCount (t : List Nat) (b : Nat) : Nat := if b = 0 then 0 else (t.filter (· == b)).length

/-- `first[b]`, the first code of length `b`: `next = (next + count[b-1]) * 2`, starting from 0 (41_inflate.md R177). -/
def firstCode (t : List Nat) : Nat → Nat
  | 0 => 0
  | b + 1 => (firstCode t b + lengthCount t b) * 2

/-- `code(s)`: codes of one length are given in increasing symbol order (41_inflate.md R177). -/
def codeOf (t : List Nat) (sym : Nat) : Nat :=
  firstCode t (t.getD sym 0) + ((t.take sym).filter (· == t.getD sym 0)).length

/-- The symbols of code length `len` in increasing order. -/
def symbolsOfLength (t : List Nat) (len : Nat) : List Nat := (t.zipIdx.filter (fun p => p.1 == len)).map (·.2)

/-- The symbol whose code has length `len` and value `code`, if any: `T[s] == len and code(s) == code` (41_inflate.md R178). Since
the codes of one length are consecutive from `first[len]` in symbol order (R177), it is found by position;
`Laws.symbolOf_eq_some` states that it is the symbol R178 asks for. -/
def symbolOf (t : List Nat) (len code : Nat) : Option Nat :=
  if code < firstCode t len then none else (symbolsOfLength t len)[code - firstCode t len]?

/-- `max over s of T[s]` (41_inflate.md R178). -/
def maxLen (t : List Nat) : Nat := t.foldl max 0

/-- The loop of `decode(T)` (41_inflate.md R178): `len` bits have been read as `code`, at most `fuel` more may be. The first bit read
is the most significant (20_memory.md R73). -/
def State.decodeLoop (t : List Nat) : (fuel len code : Nat) → State → Res Nat
  | 0, _, _, s => .raised (s.raiseU1 .noCode)
  | fuel + 1, len, code, s =>
    s.getbit.bind fun b s =>
      match symbolOf t (len + 1) (code * 2 + b) with
      | some sym => .ok sym s
      | none => State.decodeLoop t fuel (len + 1) (code * 2 + b) s

/-- `decode(T)`: read one symbol (41_inflate.md R178). -/
def State.decodeSymbol (s : State) (t : List Nat) : Res Nat := State.decodeLoop t (maxLen t) 0 0 s

/-- `n` bits of `v`, most significant first. -/
def msbBits (v : Nat) : (n : Nat) → List Nat
  | 0 => []
  | n + 1 => v / 2 ^ n % 2 :: msbBits v n

/-- The code of a symbol as it stands in the stream, first bit first (20_memory.md R73, 41_inflate.md R177). -/
def codeBits (t : List Nat) (sym : Nat) : List Nat := msbBits (codeOf t sym) (t.getD sym 0)

/-- `CL_LEN` as a table. -/
def State.clTable (s : State) : List Nat := s.u1.clLen.map BitVec.toNat

/-- `LL_LEN` as a table. -/
def State.llTable (s : State) : List Nat := s.u1.llLen.map BitVec.toNat

/-- `D_LEN` as a table. -/
def State.dTable (s : State) : List Nat := s.u1.dLen.map BitVec.toNat

end Sys2Proof.Machine
end

