-- ==== Sys2Proof/Machine/Tables.lean ====
section
/-! DEFINITION. The read-only constants of CORE (10_state.md R45): the meta-alphabet order, the length and distance tables, the
fixed-block code lengths and the pass table. -/

namespace Sys2Proof.Machine

/-- `CL_ORDER` (30_encoding.md R106). -/
def clOrder : List Nat := [16, 17, 18, 0, 8, 7, 9, 6, 10, 5, 11, 4, 12, 3, 13, 2, 14, 1, 15]

/-- `LEN_BASE[257 + k]` (30_encoding.md R108). -/
def lenBaseTable : List Nat :=
  [3, 4, 5, 6, 7, 8, 9, 10, 11, 13, 15, 17, 19, 23, 27, 31, 35, 43, 51, 59, 67, 83, 99, 115, 131, 163, 195, 227, 258]

/-- `LEN_EXTRA[257 + k]` (30_encoding.md R108). -/
def lenExtraTable : List Nat :=
  [0, 0, 0, 0, 0, 0, 0, 0, 1, 1, 1, 1, 2, 2, 2, 2, 3, 3, 3, 3, 4, 4, 4, 4, 5, 5, 5, 5, 0]

/-- `DIST_BASE[d]` (30_encoding.md R109). -/
def distBaseTable : List Nat :=
  [1, 2, 3, 4, 5, 7, 9, 13, 17, 25, 33, 49, 65, 97, 129, 193, 257, 385, 513, 769, 1025, 1537, 2049, 3073, 4097, 6145, 8193,
    12289, 16385, 24577]

/-- `DIST_EXTRA[d]` (30_encoding.md R109). -/
def distExtraTable : List Nat :=
  [0, 0, 0, 0, 1, 1, 2, 2, 3, 3, 4, 4, 5, 5, 6, 6, 7, 7, 8, 8, 9, 9, 10, 10, 11, 11, 12, 12, 13, 13]

/-- `LEN_BASE[sym]`. -/
def lenBase (sym : Nat) : Nat := lenBaseTable.getD (sym - 257) 0

/-- `LEN_EXTRA[sym]`. -/
def lenExtra (sym : Nat) : Nat := lenExtraTable.getD (sym - 257) 0

/-- `DIST_BASE[d]`. -/
def distBase (d : Nat) : Nat := distBaseTable.getD d 0

/-- `DIST_EXTRA[d]`. -/
def distExtra (d : Nat) : Nat := distExtraTable.getD d 0

/-- `FIXED_LL[0..287]` (30_encoding.md R110). -/
def fixedLl : List (BitVec 4) :=
  List.replicate 144 8 ++ List.replicate 112 9 ++ List.replicate 24 7 ++ List.replicate 8 8

/-- `FIXED_D[0..31]` (30_encoding.md R110). -/
def fixedD : List (BitVec 4) := List.replicate 32 5

/-- One entry of the pass list: start row and column, row and column step, width and height in pixels
(43_deinterlace.md R280 to R282). -/
structure Pass where
  sr : Nat
  sc : Nat
  rs : Nat
  cs : Nat
  pw : Nat
  ph : Nat
  deriving DecidableEq, Repr

/-- The seven tuples `(startRow, startCol, rowStep, colStep)` in pass order (43_deinterlace.md R280). -/
def passTuples : List (Nat × Nat × Nat × Nat) :=
  [(0, 0, 8, 8), (0, 4, 8, 8), (4, 0, 8, 4), (0, 2, 4, 4), (2, 0, 4, 2), (0, 1, 2, 2), (1, 0, 2, 1)]

end Sys2Proof.Machine
end

