-- ==== Sys2Proof/Machine/Inflate.lean ====
section
/-! DEFINITION. Unit U1 INFLATE (41_inflate.md): the output buffer, the back-reference copy, and one meaning for every stream
element. Each element is executed after its own bits have been read; extra bits, stored data and the like are read here. -/

namespace Sys2Proof.Machine

/-! ### Output buffer and copy -/

/-- `grow()` (41_inflate.md R176). -/
def State.grow (s : State) : Res Unit :=
  if s.params.rawMax ≤ s.regs.rawCap.toNat then .raised (s.raiseU1 .rawOverflow)
  else .ok () { s with regs := { s.regs with rawCap := reg (min (2 * s.regs.rawCap.toNat) s.params.rawMax) } }

/-- The append that ends `emit` (41_inflate.md R175). -/
def State.appendRaw (s : State) (b : Byte) : State :=
  let s' := s.writeBytes .raw s.regs.rawLen.toNat [b]
  { s' with regs := { s'.regs with rawLen := reg (s.regs.rawLen.toNat + 1) } }

/-- `emit(b)` (41_inflate.md R175). -/
def State.emit (s : State) (b : Byte) : Res Unit :=
  if s.regs.rawLen = s.regs.rawCap then s.grow.bind fun _ s => .ok () (s.appendRaw b)
  else .ok () (s.appendRaw b)

/-- `copy(length, distance)` (41_inflate.md R194): byte by byte, `RAW_LEN` read anew each time round (20_memory.md R84). The count
register of 10_state.md R40 goes down with it. -/
def State.copy (s : State) (distance : Nat) : (length : Nat) → Res Unit
  | 0 => .ok () s
  | n + 1 =>
    (s.emit (s.byteAt .raw (s.regs.rawLen.toNat - distance))).bind fun _ s =>
      State.copy { s with u1 := { s.u1 with matchLen := n } } distance n

/-- The data of a stored block (41_inflate.md R183): `n` times `emit(getbyte())`. -/
def State.copyStored (s : State) : (n : Nat) → Res Unit
  | 0 => .ok () s
  | n + 1 =>
    s.getbyte.bind fun b s => (s.emit (BitVec.ofNat 8 b)).bind fun _ s =>
      State.copyStored { s with u1 := { s.u1 with storedLen := n } } n

/-- What U1 decodes next, within the running command. -/
def State.await (s : State) (a : Await) : State := s.setPhase (.busy a)

/-- INFLATE completes: `IPOS` is the position just after the final block (10_state.md R36). -/
def State.endInflate (s : State) : State := { s.complete .raw with iposKnown := true }

/-- The end of a block (41_inflate.md R195): INFLATE completes when `BFINAL` is 1, else the next element is a header. -/
def State.endBlock (s : State) : State :=
  if s.u1.bfinal = 1 then s.endInflate else s.await .header

/-! ### Block header and block types -/

/-- `HDR` (41_inflate.md R180): both fields are latched, the body is the next part. -/
def execHdr (bfinal : BitVec 1) (btype : BitVec 2) (s : State) : Host.Outcome State Fault Refusal :=
  .next ({ s with u1 := { s.u1 with bfinal := bfinal, btype := btype } }.await .body)

/-- `STORED` (41_inflate.md R183): `align`, `LEN`, `NLEN` (read, not used), the data, the end of the block. -/
def execStored (s : State) : Host.Outcome State Fault Refusal :=
  (s.align.getLe16.bind fun len s =>
    (State.getLe16 { s with u1 := { s.u1 with storedLen := len } }).bind fun _ s =>
      (s.copyStored len).bind fun _ s => .ok () s.endBlock).outcome

/-- `FIXED` (41_inflate.md R184). -/
def execFixed (s : State) : Host.Outcome State Fault Refusal :=
  .next ({ s with u1 := { s.u1 with llLen := fixedLl, dLen := fixedD } }.await .llSymbol)

/-- `DYN` (41_inflate.md R179, R186): the dynamic header follows, beginning with its counts. -/
def execDyn (s : State) : Host.Outcome State Fault Refusal := .next (s.await .counts)

/-- `BTYPE = 3` (41_inflate.md R185). -/
def execBtypeIllegal (s : State) : Host.Outcome State Fault Refusal := .next (s.raiseU1 .badBtype)

/-! ### Dynamic block header -/

/-- `DYN` counts (41_inflate.md R186); `CL_LEN` is zeroed for the lengths that follow (R187). -/
def execDynCounts (hlit hdist : BitVec 5) (hclen : BitVec 4) (s : State) : Host.Outcome State Fault Refusal :=
  .next ({ s with u1 := { s.u1 with
    hlit := hlit.toNat + 257, hdist := hdist.toNat + 1, hclen := hclen.toNat + 4,
    metaIdx := 0, clLen := List.replicate 19 0 } }.await .metaLength)

/-- One meta code length (41_inflate.md R187): `CL_LEN[CL_ORDER[i]]` is written; after the last one the table is built. -/
def execDynMetaLengths (length : BitVec 3) (s : State) : Host.Outcome State Fault Refusal :=
  let s' := { s with u1 := { s.u1 with
    clLen := s.u1.clLen.set (clOrder.getD s.u1.metaIdx 0) length, metaIdx := s.u1.metaIdx + 1 } }
  if s'.u1.metaIdx < s'.u1.hclen then .next s'
  else if oversubscribed s'.clTable then .next (s'.raiseU1 .oversubscribed)
  else .next (s'.await .codeLengths)

/-- The start of the code-length sequence (41_inflate.md R188): `k = 0`, `SEQ` empty. -/
def execDynCodeLengths (s : State) : Host.Outcome State Fault Refusal :=
  .next ({ s with u1 := { s.u1 with seq := [] } }.await .clSymbol)

/-- A code-length list written over an alphabet of `n` entries: entries at and above the list's size are 0 (10_state.md R39). -/
def padTable (n : Nat) (l : List (BitVec 4)) : List (BitVec 4) := (l ++ List.replicate n 0).take n

/-- The end of the code-length sequence (41_inflate.md R188): both tables are written and built. -/
def State.finishLengths (s : State) : State :=
  let s' := { s with u1 := { s.u1 with
    llLen := padTable 288 (s.u1.seq.take s.u1.hlit),
    dLen := padTable 32 ((s.u1.seq.drop s.u1.hlit).take s.u1.hdist) } }
  if oversubscribed s'.llTable then s'.raiseU1 .oversubscribed
  else if oversubscribed s'.dTable then s'.raiseU1 .oversubscribed
  else s'.await .llSymbol

/-- `n = HLIT + HDIST` (41_inflate.md R188). -/
def State.seqSize (s : State) : Nat := s.u1.hlit + s.u1.hdist

/-- `r` code lengths `v` appended to `SEQ`; the sequence ends when it holds `n` (41_inflate.md R188). -/
def State.pushLengths (s : State) (r : Nat) (v : BitVec 4) : State :=
  let s' := { s with u1 := { s.u1 with seq := s.u1.seq ++ List.replicate r v } }
  if s'.u1.seq.length < s'.seqSize then s' else s'.finishLengths

/-- A repeat of `r` lengths `v`: REPEAT_OVERRUN if it passes `n` (41_inflate.md R190 to R192). -/
def State.repeatLengths (s : State) (r : Nat) (v : BitVec 4) : State :=
  if s.seqSize < s.u1.seq.length + r then s.raiseU1 .repeatOverrun else s.pushLengths r v

/-- `CLn` (41_inflate.md R189). -/
def execCln (n : BitVec 4) (s : State) : Host.Outcome State Fault Refusal := .next (s.pushLengths 1 n)

/-- `CL16` (41_inflate.md R190): REPEAT_NO_PREV comes before the extra bits are read. -/
def execCl16 (s : State) : Host.Outcome State Fault Refusal :=
  match s.u1.seq.getLast? with
  | none => .next (s.raiseU1 .repeatNoPrev)
  | some prev => ((s.getbits 2).bind fun e s => .ok () (s.repeatLengths (3 + e) prev)).outcome

/-- `CL17` (41_inflate.md R191). -/
def execCl17 (s : State) : Host.Outcome State Fault Refusal :=
  ((s.getbits 3).bind fun e s => .ok () (s.repeatLengths (3 + e) 0)).outcome

/-- `CL18` (41_inflate.md R192). -/
def execCl18 (s : State) : Host.Outcome State Fault Refusal :=
  ((s.getbits 7).bind fun e s => .ok () (s.repeatLengths (11 + e) 0)).outcome

/-! ### Symbols of a compressed block -/

/-- `LIT` (41_inflate.md R196). -/
def execLit (byte : Byte) (s : State) : Host.Outcome State Fault Refusal := (s.emit byte).outcome

/-- `EOB` (41_inflate.md R195). -/
def execEob (s : State) : Host.Outcome State Fault Refusal := .next s.endBlock

/-- The length part of a MATCH (41_inflate.md R198): `length = LEN_BASE[sym] + getbits(LEN_EXTRA[sym])`; the distance symbol follows. -/
def State.lengthPart (s : State) (sym : Nat) : Host.Outcome State Fault Refusal :=
  ((s.getbits (lenExtra sym)).bind fun e s =>
    .ok () ({ s with u1 := { s.u1 with matchLen := lenBase sym + e } }.await .dSymbol)).outcome

/-- The distance part of a MATCH (41_inflate.md R198): `distance = DIST_BASE[d] + getbits(DIST_EXTRA[d])`, checked against `RAW_LEN`
before any byte is emitted, then the copy (R194). -/
def State.distancePart (s : State) (d : Nat) : Host.Outcome State Fault Refusal :=
  ((s.getbits (distExtra d)).bind fun e s =>
    let s' := { s with u1 := { s.u1 with matchDist := distBase d + e } }
    if s'.regs.rawLen.toNat < s'.u1.matchDist then .raised (s'.raiseU1 .distanceTooFar)
    else (s'.copy s'.u1.matchDist s'.u1.matchLen).bind fun _ s => .ok () (s.await .llSymbol)).outcome

/-- Symbols 286 and 287 (41_inflate.md R193). -/
def execLlIllegal286To287 (_sym : BitVec 9) (s : State) : Host.Outcome State Fault Refusal :=
  .next (s.raiseU1 .badLengthSymbol)

/-- Symbols 30 and 31 (41_inflate.md R193). -/
def execDIllegal30To31 (_sym : BitVec 5) (s : State) : Host.Outcome State Fault Refusal :=
  .next (s.raiseU1 .badDistanceSymbol)

/-- `LEN_257`: length 3 + getbits(0) (30_encoding.md R108, 41_inflate.md R198). -/
def execLen257 (s : State) : Host.Outcome State Fault Refusal := s.lengthPart 257

/-- `LEN_258`: length 4 + getbits(0) (30_encoding.md R108, 41_inflate.md R198). -/
def execLen258 (s : State) : Host.Outcome State Fault Refusal := s.lengthPart 258

/-- `LEN_259`: length 5 + getbits(0) (30_encoding.md R108, 41_inflate.md R198). -/
def execLen259 (s : State) : Host.Outcome State Fault Refusal := s.lengthPart 259

/-- `LEN_260`: length 6 + getbits(0) (30_encoding.md R108, 41_inflate.md R198). -/
def execLen260 (s : State) : Host.Outcome State Fault Refusal := s.lengthPart 260

/-- `LEN_261`: length 7 + getbits(0) (30_encoding.md R108, 41_inflate.md R198). -/
def execLen261 (s : State) : Host.Outcome State Fault Refusal := s.lengthPart 261

/-- `LEN_262`: length 8 + getbits(0) (30_encoding.md R108, 41_inflate.md R198). -/
def execLen262 (s : State) : Host.Outcome State Fault Refusal := s.lengthPart 262

/-- `LEN_263`: length 9 + getbits(0) (30_encoding.md R108, 41_inflate.md R198). -/
def execLen263 (s : State) : Host.Outcome State Fault Refusal := s.lengthPart 263

/-- `LEN_264`: length 10 + getbits(0) (30_encoding.md R108, 41_inflate.md R198). -/
def execLen264 (s : State) : Host.Outcome State Fault Refusal := s.lengthPart 264

/-- `LEN_265`: length 11 + getbits(1) (30_encoding.md R108, 41_inflate.md R198). -/
def execLen265 (s : State) : Host.Outcome State Fault Refusal := s.lengthPart 265

/-- `LEN_266`: length 13 + getbits(1) (30_encoding.md R108, 41_inflate.md R198). -/
def execLen266 (s : State) : Host.Outcome State Fault Refusal := s.lengthPart 266

/-- `LEN_267`: length 15 + getbits(1) (30_encoding.md R108, 41_inflate.md R198). -/
def execLen267 (s : State) : Host.Outcome State Fault Refusal := s.lengthPart 267

/-- `LEN_268`: length 17 + getbits(1) (30_encoding.md R108, 41_inflate.md R198). -/
def execLen268 (s : State) : Host.Outcome State Fault Refusal := s.lengthPart 268

/-- `LEN_269`: length 19 + getbits(2) (30_encoding.md R108, 41_inflate.md R198). -/
def execLen269 (s : State) : Host.Outcome State Fault Refusal := s.lengthPart 269

/-- `LEN_270`: length 23 + getbits(2) (30_encoding.md R108, 41_inflate.md R198). -/
def execLen270 (s : State) : Host.Outcome State Fault Refusal := s.lengthPart 270

/-- `LEN_271`: length 27 + getbits(2) (30_encoding.md R108, 41_inflate.md R198). -/
def execLen271 (s : State) : Host.Outcome State Fault Refusal := s.lengthPart 271

/-- `LEN_272`: length 31 + getbits(2) (30_encoding.md R108, 41_inflate.md R198). -/
def execLen272 (s : State) : Host.Outcome State Fault Refusal := s.lengthPart 272

/-- `LEN_273`: length 35 + getbits(3) (30_encoding.md R108, 41_inflate.md R198). -/
def execLen273 (s : State) : Host.Outcome State Fault Refusal := s.lengthPart 273

/-- `LEN_274`: length 43 + getbits(3) (30_encoding.md R108, 41_inflate.md R198). -/
def execLen274 (s : State) : Host.Outcome State Fault Refusal := s.lengthPart 274

/-- `LEN_275`: length 51 + getbits(3) (30_encoding.md R108, 41_inflate.md R198). -/
def execLen275 (s : State) : Host.Outcome State Fault Refusal := s.lengthPart 275

/-- `LEN_276`: length 59 + getbits(3) (30_encoding.md R108, 41_inflate.md R198). -/
def execLen276 (s : State) : Host.Outcome State Fault Refusal := s.lengthPart 276

/-- `LEN_277`: length 67 + getbits(4) (30_encoding.md R108, 41_inflate.md R198). -/
def execLen277 (s : State) : Host.Outcome State Fault Refusal := s.lengthPart 277

/-- `LEN_278`: length 83 + getbits(4) (30_encoding.md R108, 41_inflate.md R198). -/
def execLen278 (s : State) : Host.Outcome State Fault Refusal := s.lengthPart 278

/-- `LEN_279`: length 99 + getbits(4) (30_encoding.md R108, 41_inflate.md R198). -/
def execLen279 (s : State) : Host.Outcome State Fault Refusal := s.lengthPart 279

/-- `LEN_280`: length 115 + getbits(4) (30_encoding.md R108, 41_inflate.md R198). -/
def execLen280 (s : State) : Host.Outcome State Fault Refusal := s.lengthPart 280

/-- `LEN_281`: length 131 + getbits(5) (30_encoding.md R108, 41_inflate.md R198). -/
def execLen281 (s : State) : Host.Outcome State Fault Refusal := s.lengthPart 281

/-- `LEN_282`: length 163 + getbits(5) (30_encoding.md R108, 41_inflate.md R198). -/
def execLen282 (s : State) : Host.Outcome State Fault Refusal := s.lengthPart 282

/-- `LEN_283`: length 195 + getbits(5) (30_encoding.md R108, 41_inflate.md R198). -/
def execLen283 (s : State) : Host.Outcome State Fault Refusal := s.lengthPart 283

/-- `LEN_284`: length 227 + getbits(5) (30_encoding.md R108, 41_inflate.md R198). -/
def execLen284 (s : State) : Host.Outcome State Fault Refusal := s.lengthPart 284

/-- `LEN_285`: length 258 + getbits(0) (30_encoding.md R108, 41_inflate.md R198). -/
def execLen285 (s : State) : Host.Outcome State Fault Refusal := s.lengthPart 285

/-- `DIST_0`: distance 1 + getbits(0) (30_encoding.md R109, 41_inflate.md R198). -/
def execDist0 (s : State) : Host.Outcome State Fault Refusal := s.distancePart 0

/-- `DIST_1`: distance 2 + getbits(0) (30_encoding.md R109, 41_inflate.md R198). -/
def execDist1 (s : State) : Host.Outcome State Fault Refusal := s.distancePart 1

/-- `DIST_2`: distance 3 + getbits(0) (30_encoding.md R109, 41_inflate.md R198). -/
def execDist2 (s : State) : Host.Outcome State Fault Refusal := s.distancePart 2

/-- `DIST_3`: distance 4 + getbits(0) (30_encoding.md R109, 41_inflate.md R198). -/
def execDist3 (s : State) : Host.Outcome State Fault Refusal := s.distancePart 3

/-- `DIST_4`: distance 5 + getbits(1) (30_encoding.md R109, 41_inflate.md R198). -/
def execDist4 (s : State) : Host.Outcome State Fault Refusal := s.distancePart 4

/-- `DIST_5`: distance 7 + getbits(1) (30_encoding.md R109, 41_inflate.md R198). -/
def execDist5 (s : State) : Host.Outcome State Fault Refusal := s.distancePart 5

/-- `DIST_6`: distance 9 + getbits(2) (30_encoding.md R109, 41_inflate.md R198). -/
def execDist6 (s : State) : Host.Outcome State Fault Refusal := s.distancePart 6

/-- `DIST_7`: distance 13 + getbits(2) (30_encoding.md R109, 41_inflate.md R198). -/
def execDist7 (s : State) : Host.Outcome State Fault Refusal := s.distancePart 7

/-- `DIST_8`: distance 17 + getbits(3) (30_encoding.md R109, 41_inflate.md R198). -/
def execDist8 (s : State) : Host.Outcome State Fault Refusal := s.distancePart 8

/-- `DIST_9`: distance 25 + getbits(3) (30_encoding.md R109, 41_inflate.md R198). -/
def execDist9 (s : State) : Host.Outcome State Fault Refusal := s.distancePart 9

/-- `DIST_10`: distance 33 + getbits(4) (30_encoding.md R109, 41_inflate.md R198). -/
def execDist10 (s : State) : Host.Outcome State Fault Refusal := s.distancePart 10

/-- `DIST_11`: distance 49 + getbits(4) (30_encoding.md R109, 41_inflate.md R198). -/
def execDist11 (s : State) : Host.Outcome State Fault Refusal := s.distancePart 11

/-- `DIST_12`: distance 65 + getbits(5) (30_encoding.md R109, 41_inflate.md R198). -/
def execDist12 (s : State) : Host.Outcome State Fault Refusal := s.distancePart 12

/-- `DIST_13`: distance 97 + getbits(5) (30_encoding.md R109, 41_inflate.md R198). -/
def execDist13 (s : State) : Host.Outcome State Fault Refusal := s.distancePart 13

/-- `DIST_14`: distance 129 + getbits(6) (30_encoding.md R109, 41_inflate.md R198). -/
def execDist14 (s : State) : Host.Outcome State Fault Refusal := s.distancePart 14

/-- `DIST_15`: distance 193 + getbits(6) (30_encoding.md R109, 41_inflate.md R198). -/
def execDist15 (s : State) : Host.Outcome State Fault Refusal := s.distancePart 15

/-- `DIST_16`: distance 257 + getbits(7) (30_encoding.md R109, 41_inflate.md R198). -/
def execDist16 (s : State) : Host.Outcome State Fault Refusal := s.distancePart 16

/-- `DIST_17`: distance 385 + getbits(7) (30_encoding.md R109, 41_inflate.md R198). -/
def execDist17 (s : State) : Host.Outcome State Fault Refusal := s.distancePart 17

/-- `DIST_18`: distance 513 + getbits(8) (30_encoding.md R109, 41_inflate.md R198). -/
def execDist18 (s : State) : Host.Outcome State Fault Refusal := s.distancePart 18

/-- `DIST_19`: distance 769 + getbits(8) (30_encoding.md R109, 41_inflate.md R198). -/
def execDist19 (s : State) : Host.Outcome State Fault Refusal := s.distancePart 19

/-- `DIST_20`: distance 1025 + getbits(9) (30_encoding.md R109, 41_inflate.md R198). -/
def execDist20 (s : State) : Host.Outcome State Fault Refusal := s.distancePart 20

/-- `DIST_21`: distance 1537 + getbits(9) (30_encoding.md R109, 41_inflate.md R198). -/
def execDist21 (s : State) : Host.Outcome State Fault Refusal := s.distancePart 21

/-- `DIST_22`: distance 2049 + getbits(10) (30_encoding.md R109, 41_inflate.md R198). -/
def execDist22 (s : State) : Host.Outcome State Fault Refusal := s.distancePart 22

/-- `DIST_23`: distance 3073 + getbits(10) (30_encoding.md R109, 41_inflate.md R198). -/
def execDist23 (s : State) : Host.Outcome State Fault Refusal := s.distancePart 23

/-- `DIST_24`: distance 4097 + getbits(11) (30_encoding.md R109, 41_inflate.md R198). -/
def execDist24 (s : State) : Host.Outcome State Fault Refusal := s.distancePart 24

/-- `DIST_25`: distance 6145 + getbits(11) (30_encoding.md R109, 41_inflate.md R198). -/
def execDist25 (s : State) : Host.Outcome State Fault Refusal := s.distancePart 25

/-- `DIST_26`: distance 8193 + getbits(12) (30_encoding.md R109, 41_inflate.md R198). -/
def execDist26 (s : State) : Host.Outcome State Fault Refusal := s.distancePart 26

/-- `DIST_27`: distance 12289 + getbits(12) (30_encoding.md R109, 41_inflate.md R198). -/
def execDist27 (s : State) : Host.Outcome State Fault Refusal := s.distancePart 27

/-- `DIST_28`: distance 16385 + getbits(13) (30_encoding.md R109, 41_inflate.md R198). -/
def execDist28 (s : State) : Host.Outcome State Fault Refusal := s.distancePart 28

/-- `DIST_29`: distance 24577 + getbits(13) (30_encoding.md R109, 41_inflate.md R198). -/
def execDist29 (s : State) : Host.Outcome State Fault Refusal := s.distancePart 29

end Sys2Proof.Machine
end

