-- ==== Sys2Proof/Machine/Command.lean ====
section
/-! DEFINITION. The system commands of the sequencer, the reserved opcodes, and the command INFLATE (40_commands.md R140, R141, R145
to R147). The other commands stand with their units. -/

namespace Sys2Proof.Machine

/-- `NOP` (40_commands.md R145): `PHASE` becomes DONE. -/
def execNop (s : State) : Host.Outcome State Fault Refusal :=
  s.command none fun _ => s.setPhase .done

/-- `CLEAR` (40_commands.md R140, R146): ignored in BUSY, accepted in IDLE, DONE and FAULT. -/
def execClear (s : State) : Host.Outcome State Fault Refusal :=
  if s.phase.isBusy then .next s else .next s.clear

/-- Reserved opcodes 6 and 7 (40_commands.md R141). -/
def execCmdReserved6To7 (_op : BitVec 4) (s : State) : Host.Outcome State Fault Refusal :=
  s.command (some (.badOpcode, .sequencer)) fun _ => s

/-- Reserved opcodes 12 to 15 (40_commands.md R141). -/
def execCmdReserved12To15 (_op : BitVec 4) (s : State) : Host.Outcome State Fault Refusal :=
  s.command (some (.badOpcode, .sequencer)) fun _ => s

/-- Admission of INFLATE (40_commands.md R147). -/
def State.inflateAdmission (s : State) : Option (FaultCode × UnitId) :=
  firstFailing .inflate [(s.payloadInRange, .paramRange)]

/-- INFLATE's registers at its start (40_commands.md R147, 41_inflate.md R174). `IPOS` has a specified value again when INFLATE
completes (10_state.md R36, log entry 19). -/
def State.startInflate (s : State) : State :=
  { s with
    regs := { s.regs with
      ipos := reg (8 * s.regs.inOff.toNat), rawLen := 0, rawCap := reg s.params.rawInitCap },
    iposKnown := false }

/-- `INFLATE` (40_commands.md R147): admission, then blocks from the first byte of the payload. -/
def execInflate (s : State) : Host.Outcome State Fault Refusal :=
  s.command s.inflateAdmission fun _ => (s.openDest .raw).startInflate.await .header

end Sys2Proof.Machine
end

