-- ==== Sys2Proof/Machine/Compositor.lean ====
section
/-! DEFINITION. Unit U4 COMPOSITOR (44_compositor.md): the commands CANVAS_INIT and COMPOSE, and one meaning for each blend and
dispose mode. COMPOSE admits and saves; the blend mode composites and takes the snapshot; the dispose mode ends the command. -/

namespace Sys2Proof.Machine

/-- `4*CANVAS_W*CANVAS_H`, the canvas size in bytes (44_compositor.md R291). -/
def State.canvasBytes (s : State) : Nat := 4 * s.regs.canvasW.toNat * s.regs.canvasH.toNat

/-- Admission of CANVAS_INIT (40_commands.md R149). -/
def State.canvasInitAdmission (s : State) : Option (FaultCode × UnitId) :=
  firstFailing .compositor [
    (1 ≤ s.regs.imgW.toNat && 1 ≤ s.regs.imgH.toNat && 4 * s.regs.imgW.toNat * s.regs.imgH.toNat ≤ s.params.pixMax,
      .paramRange)]

/-- `CANVAS_INIT` (40_commands.md R149, 44_compositor.md R290). -/
def execCanvasInit (s : State) : Host.Outcome State Fault Refusal :=
  s.command s.canvasInitAdmission fun _ =>
    let s1 := s.openDest .canvas
    let s2 := { s1 with regs := { s1.regs with canvasW := s1.regs.imgW, canvasH := s1.regs.imgH, frameCnt := 0 } }
    (s2.writeBytes .canvas 0 (List.replicate s2.canvasBytes 0)).complete .canvas

/-- Admission checks of COMPOSE, in order (40_commands.md R150); sums are of naturals (44_compositor.md R292). -/
def State.composeAdmission (s : State) : Option (FaultCode × UnitId) :=
  firstFailing .compositor [
    (s.valid.tile && s.valid.canvas, .bufferNotValid),
    (s.regs.fW == s.regs.tileW && s.regs.fH == s.regs.tileH, .tileMismatch),
    (s.regs.fX.toNat + s.regs.fW.toNat ≤ s.regs.canvasW.toNat && s.regs.fY.toNat + s.regs.fH.toNat ≤ s.regs.canvasH.toNat,
      .frameRectRange),
    (s.blendMode ≤ 1 && s.disposeMode ≤ 2, .badMode)]

/-- One buffer copied over another from index 0: `DST[0 .. n) <- SRC[0 .. n)`. -/
def State.copyBuf (s : State) (src dst : Buf) (n : Nat) : State := s.writeBytes dst 0 (s.bytesAt src 0 n)

/-- `COMPOSE` (40_commands.md R150, 44_compositor.md R291): admission, both destinations opened, and the pre-composite copy when
the dispose mode is restorePrevious (R293). The blend mode is decoded next. -/
def execCompose (s : State) : Host.Outcome State Fault Refusal :=
  s.command s.composeAdmission fun _ =>
    let s1 := (s.openDest .canvas).openDest .out
    let s2 := if s.disposeMode = 2 then (s1.copyBuf .canvas .save s.canvasBytes).setValid .save true else s1
    s2.setPhase (.busy .blend)

/-! ### Blend (44_compositor.md R294 to R297) -/

/-- `over(S, D)`, exact integer arithmetic (44_compositor.md R296). -/
def overPixel (src dst : Pixel) : Pixel :=
  let sa := src.a.toNat
  let da := dst.a.toNat
  let n := 255 * sa + da * (255 - sa)
  let colour := fun (sc dc : Byte) =>
    if n = 0 then (0 : Byte) else BitVec.ofNat 8 ((255 * sa * sc.toNat + da * (255 - sa) * dc.toNat) / n)
  { r := colour src.r dst.r, g := colour src.g dst.g, b := colour src.b dst.b, a := BitVec.ofNat 8 (n / 255) }

/-- Index in `TILE` of tile pixel `(i, j)` (44_compositor.md R291). -/
def State.tileIndex (s : State) (i j : Nat) : Nat := 4 * (j * s.regs.fW.toNat + i)

/-- Index in `CANVAS` of the rectangle's pixel `(i, j)` (44_compositor.md R291). -/
def State.canvasIndex (s : State) (i j : Nat) : Nat :=
  4 * ((s.regs.fY.toNat + j) * s.regs.canvasW.toNat + (s.regs.fX.toNat + i))

/-- The rectangle's rows `j .. F_H` rewritten one by one; `f s j i` is the new pixel `(i, j)` (44_compositor.md R291; the order of
the loops does not matter there). `n` rows are left. -/
def State.mapRows (s : State) (f : State → Nat → Nat → Pixel) : (n : Nat) → State
  | 0 => s
  | n + 1 =>
    let j := s.regs.fH.toNat - (n + 1)
    State.mapRows
      (s.writeBytes .canvas (s.canvasIndex 0 j) ((List.range s.regs.fW.toNat).flatMap (fun i => (f s j i).bytes))) f n

/-- Every pixel of the rectangle rewritten (44_compositor.md R291). -/
def State.mapRect (s : State) (f : State → Nat → Nat → Pixel) : State := s.mapRows f s.regs.fH.toNat

/-- The tile's pixel `(i, j)`, in front (44_compositor.md R295). -/
def State.tilePixel (s : State) (j i : Nat) : Pixel := s.pixelAt .tile (s.tileIndex i j)

/-- The canvas pixel behind it (44_compositor.md R295). -/
def State.canvasPixel (s : State) (j i : Nat) : Pixel := s.pixelAt .canvas (s.canvasIndex i j)

/-- `FRAME_CNT + 1`; beyond 32 bits the spec states no value: a free value (log entry 11). -/
def State.countFrame (s : State) : State :=
  if s.regs.frameCnt.toNat + 1 < 2 ^ 32 then
    { s with regs := { s.regs with frameCnt := reg (s.regs.frameCnt.toNat + 1) } }
  else { s.freeWord.2 with regs := { s.freeWord.2.regs with frameCnt := s.freeWord.1 } }

/-- The snapshot, taken after the blend and before the dispose effect, and its count (44_compositor.md R291, R297). -/
def State.snapshot (s : State) : State :=
  let s1 := s.copyBuf .canvas .out s.canvasBytes
  { s1 with regs := { s1.regs with
    outLen := reg s.canvasBytes, outW := s.regs.canvasW, outH := s.regs.canvasH } }.countFrame

/-- Blend mode source (44_compositor.md R294), then the snapshot. -/
def execBlendSource (s : State) : Host.Outcome State Fault Refusal :=
  .next ((s.mapRect fun s j i => s.tilePixel j i).snapshot.setPhase (.busy .dispose))

/-- Blend mode over (44_compositor.md R295), then the snapshot. -/
def execBlendOver (s : State) : Host.Outcome State Fault Refusal :=
  .next ((s.mapRect fun s j i => overPixel (s.tilePixel j i) (s.canvasPixel j i)).snapshot.setPhase (.busy .dispose))

/-- Blend modes 2 and 3 (44_compositor.md R307). COMPOSE refuses them at admission (40_commands.md R150). -/
def execBlendReserved2To3 (_blend : BitVec 2) (s : State) : Host.Outcome State Fault Refusal :=
  .next (s.raise .badMode .compositor)

/-! ### Dispose (44_compositor.md R298 to R300, R306) -/

/-- The end of COMPOSE: both destinations are valid (40_commands.md R143). -/
def State.endCompose (s : State) : State := (s.complete .canvas).complete .out

/-- Dispose mode none (44_compositor.md R298). -/
def execDisposeNone (s : State) : Host.Outcome State Fault Refusal := .next s.endCompose

/-- Dispose mode clearToBackground (44_compositor.md R299). -/
def execDisposeClearToBackground (s : State) : Host.Outcome State Fault Refusal :=
  .next (s.mapRect fun _ _ _ => Pixel.zero).endCompose

/-- Dispose mode restorePrevious (44_compositor.md R300). -/
def execDisposeRestorePrevious (s : State) : Host.Outcome State Fault Refusal :=
  .next ((s.copyBuf .save .canvas s.canvasBytes).setValid .save false).endCompose

/-- Dispose mode 3 (44_compositor.md R307). COMPOSE refuses it at admission (40_commands.md R150). -/
def execDisposeReserved3 (s : State) : Host.Outcome State Fault Refusal := .next (s.raise .badMode .compositor)

end Sys2Proof.Machine
end

