-- ==== Sys2Proof/Machine/Numerics.lean ====
section
/-! DEFINITION. The operations of unit U5 over any `NUMERICS`, and `NUMERICS` instantiated with the exact reals (45_dct_hash.md
R363). Every real number that the rules of 45_dct_hash.md form is a rational multiple of PI, the argument of a cosine, or a
quotient of two sums of rational multiples of cosines of rational multiples of PI; both are held exactly, and a comparison is
decided exactly: by enclosing intervals that do not hold 0, or by an exact test that the difference is 0 (log entry 12). -/

namespace Sys2Proof

/-! ### Operations over any `NUMERICS` (00_scope.md R8, 45_dct_hash.md R363)

The spec's formulas are over the exact reals, where the order in which a sum or product is evaluated makes no difference. For any other
number system the order and association written here and in Machine/Hash.lean are the model's choice (DESIGN CHOICE: log entry 26). -/

/-- A computed integer as a field of `bits` bits. The exact reals keep it in the field's range (45_dct_hash.md R331, R346); where another
number system leaves it, the spec states no result and the field is a free value (DESIGN CHOICE: log entry 27). -/
def fieldBits (bits : Nat) (v : Int) : BitVec bits :=
  if 0 ≤ v ∧ v < 2 ^ bits then BitVec.ofInt bits v else Config.outOfField bits v

section

variable {N : Type} (ns : NumberSystem N)

/-- The quotient of two natural numbers. -/
def NumberSystem.frac (a b : Nat) : N := ns.div (ns.ofNat a) (ns.ofNat b)

/-- The sum of a list, first term first: the model's order (log entry 26). -/
def NumberSystem.sum (l : List N) : N := l.foldl ns.add (ns.ofNat 0)

/-- `max(a, b)`. -/
def NumberSystem.max (a b : N) : N := if ns.le a b then b else a

/-- `|x|`. -/
def NumberSystem.abs (x : N) : N := if ns.le (ns.ofNat 0) x then x else ns.sub (ns.ofNat 0) x

/-- `clamp(x, 0, 1)`. -/
def NumberSystem.clamp01 (x : N) : N :=
  if ns.le x (ns.ofNat 0) then ns.ofNat 0 else if ns.le (ns.ofNat 1) x then ns.ofNat 1 else x

/-- `rhu(x) = floor(x + 1/2)` (00_scope.md R8). -/
def NumberSystem.rhu (x : N) : Int := ns.floor (ns.add x (ns.frac 1 2))

/-- `cos(PI/side * c * (k + 1/2))`, associated as 45_dct_hash.md R328 writes it, also where R344 writes `PI/side * (k + 1/2) * c`
(log entry 26). -/
def NumberSystem.wave (side c k : Nat) : N :=
  ns.cos (ns.mul (ns.mul (ns.div ns.pi (ns.ofNat side)) (ns.ofNat c)) (ns.add (ns.ofNat k) (ns.frac 1 2)))

/-- `x / 31.5 - 1`, an offset-encoded field (45_dct_hash.md R340). -/
def NumberSystem.offset (x : Nat) : N := ns.sub (ns.div (ns.ofNat x) (ns.frac 63 2)) (ns.ofNat 1)

/-- A byte as a number in [0, 1] (45_dct_hash.md R321). -/
def NumberSystem.unit255 (b : Byte) : N := ns.frac b.toNat 255

/-- Output byte `floor(255 * clamp(v, 0, 1))` (45_dct_hash.md R346). -/
def NumberSystem.byte (v : N) : Byte := fieldBits 8 (ns.floor (ns.mul (ns.ofNat 255) (ns.clamp01 v)))

end

end Sys2Proof

namespace Sys2Proof.Machine

/-! ### Intervals: `lo * 2^-q <= x <= hi * 2^-q` -/

/-- An interval of reals, both ends scaled by `2^q`. -/
structure Ival where
  lo : Int
  hi : Int
  deriving DecidableEq, Repr

/-- Quotient rounded up, for a positive divisor. -/
def ceilDiv (a b : Int) : Int := -((-a) / b)

/-- The sum. -/
def Ival.add (x y : Ival) : Ival := { lo := x.lo + y.lo, hi := x.hi + y.hi }

/-- The negation. -/
def Ival.neg (x : Ival) : Ival := { lo := -x.hi, hi := -x.lo }

/-- The product with an integer. -/
def Ival.scale (c : Int) (x : Ival) : Ival :=
  if 0 ≤ c then { lo := c * x.lo, hi := c * x.hi } else { lo := c * x.hi, hi := c * x.lo }

/-- The quotient by a positive number, rounded outward. -/
def Ival.divNat (x : Ival) (n : Nat) : Ival := { lo := x.lo / n, hi := ceilDiv x.hi n }

/-- The product, rounded outward to the scale `2^q`. -/
def Ival.mul (q : Nat) (x y : Ival) : Ival :=
  let a := x.lo * y.lo
  let b := x.lo * y.hi
  let c := x.hi * y.lo
  let d := x.hi * y.hi
  { lo := min (min a b) (min c d) / 2 ^ q, hi := ceilDiv (max (max a b) (max c d)) (2 ^ q) }

/-- The interval widened by `e` on both sides. -/
def Ival.widen (x : Ival) (e : Int) : Ival := { lo := x.lo - e, hi := x.hi + e }

/-- `1 / d`. -/
def Ival.recip (q d : Nat) : Ival := { lo := 2 ^ q / d, hi := 2 ^ q / d + 1 }

/-! ### PI and the cosine -/

/-- The first `m` terms of the series of `arctan(1/k)`: `(-1)^i / ((2i+1) k^(2i+1))`. -/
def arctanSum (q k : Nat) : (m : Nat) → Ival
  | 0 => { lo := 0, hi := 0 }
  | m + 1 =>
    let term := Ival.recip q ((2 * m + 1) * k ^ (2 * m + 1))
    (arctanSum q k m).add (if m % 2 = 0 then term else term.neg)

/-- `arctan(1/k)`: the alternating series is within its next term of the limit. -/
def arctanInv (q k m : Nat) : Ival := (arctanSum q k m).widen (Ival.recip q ((2 * m + 1) * k ^ (2 * m + 1))).hi

/-- PI = 16 arctan(1/5) - 4 arctan(1/239). -/
def piIval (q : Nat) : Ival :=
  ((arctanInv q 5 (q / 4 + 1)).scale 16).add ((arctanInv q 239 (q / 4 + 1)).scale (-4))

/-- The series of the cosine from term `i` on, `m` terms: `term` encloses `x^(2i) / (2i)!`, `x2` encloses `x^2`. The remainder is
at most twice the next term. -/
def cosSeries (q : Nat) (x2 : Ival) : (m i : Nat) → (term acc : Ival) → Ival
  | 0, _, term, acc => acc.widen (2 * term.hi)
  | m + 1, i, term, acc =>
    cosSeries q x2 m (i + 1) ((Ival.mul q term x2).divNat ((2 * i + 1) * (2 * i + 2)))
      (acc.add (if i % 2 = 0 then term else term.neg))

/-- `cos(PI * j / n)`, given an enclosure of PI. -/
def cosIval (q : Nat) (pi : Ival) (n j : Nat) : Ival :=
  let x := (pi.scale j).divNat n
  cosSeries q (Ival.mul q x x) (q / 4 + 4) 0 { lo := 2 ^ q, hi := 2 ^ q } { lo := 0, hi := 0 }

/-! ### Sums of cosines -/

/-- The real number `sum of c * cos(PI * r)` over the terms `(r, c)`: angles `r` strictly rising in `[0, 1/2)`, no `c` zero. -/
abbrev Trig := List (Rat × Rat)

/-- A rational number. -/
def Trig.const (c : Rat) : Trig := if c = 0 then [] else [(0, c)]

/-- A sum that is a rational number as it stands. -/
def Trig.rat? : Trig → Option Rat
  | [] => some 0
  | [(r, c)] => if r = 0 then some c else none
  | _ => none

/-- `c * cos(PI * r)` added, `r` in `[0, 1/2)`. -/
def Trig.insert (r c : Rat) : Trig → Trig
  | [] => if c = 0 then [] else [(r, c)]
  | (k, d) :: t =>
    if r = k then (if c + d = 0 then t else (k, c + d) :: t)
    else if r < k then (if c = 0 then (k, d) :: t else (r, c) :: (k, d) :: t)
    else (k, d) :: Trig.insert r c t

/-- `c * cos(PI * r)` added, the angle folded into `[0, 1/2)`: the cosine has period 2 and is even, `cos(PI - x) = -cos(x)`, and
`cos(PI/2) = 0`. -/
def Trig.addCos (r c : Rat) (t : Trig) : Trig :=
  let r1 := r - 2 * ((r / 2).floor : Rat)
  let r2 := if 1 < r1 then 2 - r1 else r1
  if r2 = 1 / 2 then t
  else if 1 / 2 < r2 then Trig.insert (1 - r2) (-c) t
  else Trig.insert r2 c t

/-- The product with a rational number. -/
def Trig.scale (c : Rat) (t : Trig) : Trig := if c = 0 then [] else t.map (fun p => (p.1, c * p.2))

/-- The sum. -/
def Trig.add (x y : Trig) : Trig := x.foldl (fun acc p => Trig.insert p.1 p.2 acc) y

/-- The product of `c * cos(PI * r)` with a sum, added: `cos a cos b = (cos(a + b) + cos(a - b)) / 2`. -/
def Trig.addMulTerm (r c : Rat) (y : Trig) (acc : Trig) : Trig :=
  y.foldl (fun acc p => Trig.addCos (r + p.1) (c * p.2 / 2) (Trig.addCos (r - p.1) (c * p.2 / 2) acc)) acc

/-- The product. -/
def Trig.mul (x y : Trig) : Trig :=
  match x.rat?, y.rat? with
  | some a, _ => y.scale a
  | none, some b => x.scale b
  | none, none => x.foldl (fun acc p => Trig.addMulTerm p.1 p.2 y acc) []

/-! ### Enclosure and the exact zero test

With `z` a primitive `m`-th root of unity, `m = 2n`, the sum of cosines is half the sum of `f_j z^j` over `j < m`. That sum is 0 iff,
for a prime `p` dividing `m`: if `p` divides `m/p`, each of the `p` sums over `j = r (mod p)` is 0; else the `p` sums over
`j = a*(m/p) + b*p (mod m)`, `a < p`, are equal. -/

/-- `n` such that every angle of the sum is a multiple of `PI / n`. -/
def Trig.unit (t : Trig) : Nat := t.foldl (fun n p => Nat.lcm n p.1.den) 1

/-- The least common multiple of the coefficients' denominators. -/
def Trig.den (t : Trig) : Nat := t.foldl (fun d p => Nat.lcm d p.2.den) 1

/-- The angle of a term as a multiple of `PI / n`. -/
def angleIndex (n : Nat) (r : Rat) : Nat := (r * (n : Rat)).floor.toNat

/-- An enclosure of `den` times the sum. -/
def Trig.enclose (q : Nat) (t : Trig) : Ival :=
  let pi := piIval q
  let n := t.unit
  let d := t.den
  t.foldl (fun acc p => acc.add ((cosIval q pi n (angleIndex n p.1)).scale (p.2.num * ((d / p.2.den : Nat) : Int))))
    { lo := 0, hi := 0 }

/-- Every `p`-th element, `m` of them. -/
def decimate (p : Nat) : (m : Nat) → List Rat → List Rat
  | 0, _ => []
  | m + 1, f => f.headD 0 :: decimate p m (f.drop p)

/-- The list turned left by `k`. -/
def rotateBy (k : Nat) (f : List Rat) : List Rat := f.drop k ++ f.take k

/-- The sum of `f_j z^j` is 0, `z` a primitive root of unity of order `m`, `primes` the prime factors of `m` with multiplicity. -/
def vanishes : (primes : List Nat) → (m : Nat) → List Rat → Bool
  | [], _, f => f.all (· == 0)
  | p :: ps, m, f =>
    if m / p % p = 0 then
      (List.range p).all (fun r => vanishes ps (m / p) (decimate p (m / p) (f.drop r)))
    else
      (List.range p).all (fun a =>
        vanishes ps (m / p) (List.zipWith (fun x y => x - y) (decimate p (m / p) (rotateBy (a * (m / p)) f)) (decimate p (m / p) f)))

/-- The prime factors of `m` with multiplicity, none below `d`. -/
def primeFactors : (fuel d m : Nat) → List Nat
  | 0, _, _ => []
  | fuel + 1, d, m =>
    if m ≤ 1 then []
    else if m < d * d then [m]
    else if m % d = 0 then d :: primeFactors fuel d (m / d)
    else primeFactors fuel (d + 1) m

/-- The coefficients `f_j` of the powers of `z`: a term `c * cos(PI * j / n)` is half of `c z^j + c z^(2n - j)`. -/
def Trig.spread (n : Nat) (t : Trig) : List Rat :=
  t.foldl (fun f p => (f.modify (angleIndex n p.1) (· + p.2)).modify ((2 * n - angleIndex n p.1) % (2 * n)) (· + p.2))
    (List.replicate (2 * n) 0)

/-- The sum of cosines is exactly 0. -/
def Trig.isZero (t : Trig) : Bool := vanishes (primeFactors (2 * t.unit) 2 (2 * t.unit)) (2 * t.unit) (t.spread t.unit)

/-! ### Sign -/

/-- The sign of an interval that does not hold 0. -/
def Ival.sign? (x : Ival) : Option Int := if 0 < x.lo then some 1 else if x.hi < 0 then some (-1) else none

/-- The sign of a rational number. -/
def ratSign (c : Rat) : Int := if c = 0 then 0 else if 0 < c then 1 else -1

/-- The sign of a sum known not to be 0, by ever narrower intervals. -/
def Trig.signNonzero (t : Trig) : (fuel q : Nat) → Int
  | 0, _ => 0
  | fuel + 1, q =>
    match (t.enclose q).sign? with
    | some k => k
    | none => Trig.signNonzero t fuel (2 * q)

/-- The sign of the sum: -1, 0 or 1. -/
def Trig.sign (t : Trig) : Int :=
  match t.rat? with
  | some c => ratSign c
  | none =>
    match (t.enclose 64).sign? with
    | some k => k
    | none => if t.isZero then 0 else Trig.signNonzero t 16 128

/-! ### The exact reals -/

/-- A real number of the class the rules form. -/
inductive ExactReal where
  /-- `num / den` -/
  | quot (num den : Trig)
  /-- `r * PI`, `r` not 0 -/
  | piTimes (r : Rat)
  /-- a number no rule forms: a quotient by 0, PI times or plus what is not rational or not 0, the cosine of no multiple of PI -/
  | unformed
  deriving DecidableEq, Repr

/-- A rational number. -/
def ExactReal.ofRat (c : Rat) : ExactReal := .quot (Trig.const c) (Trig.const 1)

/-- `r * PI`. -/
def ExactReal.ofPi (r : Rat) : ExactReal := if r = 0 then .ofRat 0 else .piTimes r

/-- The number as a rational, if it is one as it stands. -/
def ExactReal.rat? : ExactReal → Option Rat
  | .quot a b =>
    match a.rat?, b.rat? with
    | some x, some y => if y = 0 then none else some (x / y)
    | _, _ => none
  | .piTimes _ => none
  | .unformed => none

/-- The product with a rational number. -/
def ExactReal.scale (c : Rat) : ExactReal → ExactReal
  | .quot a b => .quot (a.scale c) b
  | .piTimes r => .ofPi (c * r)
  | .unformed => .unformed

/-- The sum. -/
def ExactReal.add (x y : ExactReal) : ExactReal :=
  match x, y with
  | .quot a b, .quot c d => if b = d then .quot (a.add c) b else .quot ((a.mul d).add (c.mul b)) (b.mul d)
  | .piTimes r, .piTimes s => .ofPi (r + s)
  | .piTimes r, .quot c _ => if c = [] then .piTimes r else .unformed
  | .quot a _, .piTimes s => if a = [] then .piTimes s else .unformed
  | .unformed, _ => .unformed
  | _, .unformed => .unformed

/-- The difference. -/
def ExactReal.sub (x y : ExactReal) : ExactReal := x.add (y.scale (-1))

/-- The product. -/
def ExactReal.mul (x y : ExactReal) : ExactReal :=
  match x.rat?, y.rat? with
  | some c, _ => y.scale c
  | none, some c => x.scale c
  | none, none =>
    match x, y with
    | .quot a b, .quot c d => .quot (a.mul c) (b.mul d)
    | _, _ => .unformed

/-- The quotient. -/
def ExactReal.div (x y : ExactReal) : ExactReal :=
  match y.rat? with
  | some c => if c = 0 then .unformed else x.scale (1 / c)
  | none =>
    match x, y with
    | .quot a b, .quot c d => if c.isZero then .unformed else .quot (a.mul d) (b.mul c)
    | _, _ => .unformed

/-- The sign, if the number is formed. -/
def ExactReal.sign? : ExactReal → Option Int
  | .quot a b => some (a.sign * b.sign)
  | .piTimes r => some (ratSign r)
  | .unformed => none

/-- `x <= y`. -/
def ExactReal.le (x y : ExactReal) : Bool :=
  match (y.sub x).sign? with
  | some k => 0 ≤ k
  | none => false

/-- `cos(x)`. -/
def ExactReal.cos : ExactReal → ExactReal
  | .quot a _ => if a = [] then .ofRat 1 else .unformed
  | .piTimes r => .quot (Trig.addCos r 1 []) (Trig.const 1)
  | .unformed => .unformed

/-- The least and the greatest floor of `a / b` over an interval of `a` and one of `b` that does not hold 0. -/
def Ival.floors (a b : Ival) : Int × Int :=
  let fs := [a.lo / b.lo, a.lo / b.hi, a.hi / b.lo, a.hi / b.hi]
  (fs.foldl min (a.lo / b.lo), fs.foldl max (a.lo / b.lo))

/-- `floor(a / b)` by ever narrower intervals: they leave one integer, or two of which a comparison picks. -/
def Trig.floorQuot (a b : Trig) : (fuel q : Nat) → Int
  | 0, _ => 0
  | fuel + 1, q =>
    let x := a.enclose q
    let y := b.enclose q
    match y.sign? with
    | none => Trig.floorQuot a b fuel (2 * q)
    | some _ =>
      let (k, l) := Ival.floors (x.scale b.den) (y.scale a.den)
      if k = l then k
      else if k + 1 = l then (if ExactReal.le (.ofRat (l : Rat)) (.quot a b) then l else k)
      else Trig.floorQuot a b fuel (2 * q)

/-- `floor(x)` (00_scope.md R8). -/
def ExactReal.floor (x : ExactReal) : Int :=
  match x.rat? with
  | some c => c.floor
  | none =>
    match x with
    | .quot a b => Trig.floorQuot a b 16 64
    | _ => 0

/-- `NUMERICS` = the exact reals (00_scope.md R5, 45_dct_hash.md R363). -/
def exactReals : NumberSystem ExactReal where
  ofNat n := .ofRat (n : Rat)
  add := ExactReal.add
  sub := ExactReal.sub
  mul := ExactReal.mul
  div := ExactReal.div
  le := ExactReal.le
  cos := ExactReal.cos
  pi := .piTimes 1
  floor := ExactReal.floor

end Sys2Proof.Machine
end

