-- ==== Sys2Proof/Machine/Hash.lean ====
section
/-! DEFINITION. Unit U5 DCT (45_dct_hash.md): HASH_ENC, HASH_DEC and the two header queries, over the number
system `NUMERICS` (Machine/Numerics.lean instantiates it with the exact reals). Each command is one step. -/

namespace Sys2Proof.Machine

/-! ### Frequency pairs and the transform -/

/-- `pairs(nx, ny)`: the frequency pairs `(cx, cy)` under the triangular cutoff, `cy` outer, `cx` inner (45_dct_hash.md R327). -/
def freqPairs (nx ny : Nat) : List (Nat × Nat) :=
  (List.range ny).flatMap fun cy =>
    ((List.range nx).filter (fun cx => cx * ny < nx * (ny - cy))).map (fun cx => (cx, cy))

/-- The AC pairs: all but `(0, 0)` (45_dct_hash.md R327). -/
def acPairs (nx ny : Nat) : List (Nat × Nat) := (freqPairs nx ny).drop 1

/-- `nAC(nx, ny)` (45_dct_hash.md R345). -/
def acCount (nx ny : Nat) : Nat := (freqPairs nx ny).length - 1

section

variable {N : Type} (ns : NumberSystem N)

/-- The forward transform `F(cx, cy)` of a channel given pixel by pixel in row-major order (45_dct_hash.md R328): one sum over the pixels
in that order, each term the channel's value times the two cosines (log entry 26). -/
def forward (w h : Nat) (ch : List N) (pair : Nat × Nat) : N :=
  ns.mul (ns.frac 1 (w * h)) (ns.sum (ch.zipIdx.map fun v =>
    ns.mul (ns.mul v.1 (ns.wave w pair.1 (v.2 % w))) (ns.wave h pair.2 (v.2 / w))))

/-! ### Encode (45_dct_hash.md R320 to R335) -/

/-- `sum_a` (45_dct_hash.md R322). -/
def sumAlpha (px : List Pixel) : N := ns.sum (px.map fun p => ns.unit255 p.a)

/-- `avg_c` for the colour that `sel` selects (45_dct_hash.md R322). -/
def average (px : List Pixel) (sel : Pixel → Byte) : N :=
  let sum := ns.sum (px.map fun p => ns.mul (ns.unit255 (sel p)) (ns.unit255 p.a))
  if ns.le (sumAlpha ns px) (ns.ofNat 0) then sum else ns.div sum (sumAlpha ns px)

/-- `c'_i = avg_c * (1 - a_i) + a_i * c_i` (45_dct_hash.md R325). -/
def compositeOver (avg : N) (c a : Byte) : N :=
  ns.add (ns.mul avg (ns.sub (ns.ofNat 1) (ns.unit255 a))) (ns.mul (ns.unit255 a) (ns.unit255 c))

/-- The four channels of an image, pixel by pixel (45_dct_hash.md R325). -/
structure Channels (N : Type) where
  l : List N
  p : List N
  q : List N
  a : List N

/-- Every pixel composited over the average colour and transformed (45_dct_hash.md R322, R325). -/
def channelsOf (px : List Pixel) : Channels N :=
  let avgR := average ns px (·.r)
  let avgG := average ns px (·.g)
  let avgB := average ns px (·.b)
  let rgb := px.map fun p =>
    (compositeOver ns avgR p.r p.a, compositeOver ns avgG p.g p.a, compositeOver ns avgB p.b p.a)
  { l := rgb.map fun c => ns.div (ns.add (ns.add c.1 c.2.1) c.2.2) (ns.ofNat 3)
    p := rgb.map fun c => ns.sub (ns.div (ns.add c.1 c.2.1) (ns.ofNat 2)) c.2.2
    q := rgb.map fun c => ns.sub c.1 c.2.1
    a := px.map fun p => ns.unit255 p.a }

/-- DC, AC list and scale of a channel on a grid (45_dct_hash.md R329). -/
structure Coeffs (N : Type) where
  dc : N
  ac : List N
  scale : N

/-- The transform of one channel (45_dct_hash.md R329): the scale is the largest magnitude in the AC list. -/
def coeffs (w h nx ny : Nat) (ch : List N) : Coeffs N :=
  let ac := (acPairs nx ny).map (forward ns w h ch)
  { dc := forward ns w h ch (0, 0)
    ac := ac
    scale := (ac.map ns.abs).foldl ns.max (ns.ofNat 0) }

/-- `norm(t) = 1/2 + t/(2*scale)` if `scale > 0`, else 1/2 (45_dct_hash.md R330). -/
def norm (scale t : N) : N :=
  if ns.le scale (ns.ofNat 0) then ns.frac 1 2 else ns.add (ns.frac 1 2) (ns.div t (ns.mul (ns.ofNat 2) scale))

/-- AC nibble `rhu(15 * norm(t))` (45_dct_hash.md R331). -/
def acNibble (scale t : N) : Nat := (fieldBits 4 (ns.rhu (ns.mul (ns.ofNat 15) (norm ns scale t)))).toNat

/-- The quantised AC nibbles of a channel (45_dct_hash.md R331). -/
def Coeffs.nibbles (c : Coeffs N) : List Nat := c.ac.map (acNibble ns c.scale)

/-- Field `rhu((2^bits - 1) * v)` (45_dct_hash.md R331). -/
def fieldOf (bits : Nat) (v : N) : Nat := (fieldBits bits (ns.rhu (ns.mul (ns.ofNat (2 ^ bits - 1)) v))).toNat

/-- Offset-encoded 6-bit field `rhu(31.5 + 31.5 * v)` (45_dct_hash.md R331). -/
def offsetFieldOf (v : N) : Nat := (fieldBits 6 (ns.rhu (ns.add (ns.frac 63 2) (ns.mul (ns.frac 63 2) v)))).toNat

/-- `hasAlpha`: some pixel is not opaque, compared exactly (45_dct_hash.md R323). -/
def hasAlphaOf (w h : Nat) (px : List Pixel) : Bool := decide ((px.map fun p => p.a.toNat).sum < 255 * (w * h))

/-- A grid count: `max(1, rhu(cap * side / m))` (45_dct_hash.md R324). -/
def gridCount (cap side m : Nat) : Nat := max 1 ((2 * cap * side + m) / (2 * m))

/-- Nibbles packed two per byte, low half first; an unpaired last one gets a high half of 0 (45_dct_hash.md R335). -/
def packNibbles : List Nat → List Byte
  | [] => []
  | [x] => [BitVec.ofNat 8 x]
  | x :: y :: rest => BitVec.ofNat 8 (x + 16 * y) :: packNibbles rest

/-- `n` bytes of a number, low byte first (20_memory.md R76). -/
def leBytes (v : Nat) : (n : Nat) → List Byte
  | 0 => []
  | n + 1 => BitVec.ofNat 8 v :: leBytes (v / 256) n

/-- The spectral hash of a `w` by `h` image (45_dct_hash.md R320): header words (R332, R333), alpha byte (R334), AC nibbles (R335). -/
def hashEncode (w h : Nat) (px : List Pixel) : List Byte :=
  let hasAlpha := hasAlphaOf w h px
  let cap := gridCap hasAlpha
  let m := max w h
  let lx := gridCount cap w m
  let ly := gridCount cap h m
  let isLandscape := decide (h < w)
  let ch := channelsOf ns px
  let l := coeffs ns w h (max 3 lx) (max 3 ly) ch.l
  let p := coeffs ns w h 3 3 ch.p
  let q := coeffs ns w h 3 3 ch.q
  let a := coeffs ns w h 5 5 ch.a
  let header24 := fieldOf ns 6 l.dc + 2 ^ 6 * offsetFieldOf ns p.dc + 2 ^ 12 * offsetFieldOf ns q.dc +
    2 ^ 18 * fieldOf ns 5 l.scale + 2 ^ 23 * hasAlpha.toNat
  let header16 := (if isLandscape then ly else lx) + 2 ^ 3 * fieldOf ns 6 p.scale + 2 ^ 9 * fieldOf ns 6 q.scale +
    2 ^ 15 * isLandscape.toNat
  let alphaByte := if hasAlpha then [BitVec.ofNat 8 (fieldOf ns 4 a.dc + 16 * fieldOf ns 4 a.scale)] else []
  let nibbles := l.nibbles ns ++ p.nibbles ns ++ q.nibbles ns ++ (if hasAlpha then a.nibbles ns else [])
  leBytes header24 3 ++ leBytes header16 2 ++ alphaByte ++ packNibbles nibbles

end

/-- The hash under the implementation's `NUMERICS` (45_dct_hash.md R363). -/
def hashEncodeWith (n : Numerics) (w h : Nat) (px : List Pixel) : List Byte :=
  match n with
  | .exactReals => hashEncode exactReals w h px
  | .other => hashEncode Config.numerics w h px

/-- The input pixels in row-major order (45_dct_hash.md R320). -/
def State.hashPixels (s : State) : List Pixel :=
  (List.range (s.regs.hW.toNat * s.regs.hH.toNat)).map (fun i => s.pixelAt .inp (s.regs.inOff.toNat + 4 * i))

/-- Admission checks of HASH_ENC, in order (40_commands.md R151). -/
def State.hashEncAdmission (s : State) : Option (FaultCode × UnitId) :=
  firstFailing .dct [
    (s.regs.hW.toNat ≤ 100 && s.regs.hH.toNat ≤ 100, .hashDim),
    (1 ≤ s.regs.hW.toNat && 1 ≤ s.regs.hH.toNat, .paramRange),
    (s.payloadInRange && s.payloadLen == 4 * s.regs.hW.toNat * s.regs.hH.toNat, .paramRange)]

/-- A result of `w` by `h` pixels (0 by 0 for hash bytes) written to `OUT` (10_state.md R35). -/
def State.putOut (s : State) (bytes : List Byte) (w h : Nat) : State :=
  let s1 := s.writeBytes .out 0 bytes
  { s1 with regs := { s1.regs with outLen := reg bytes.length, outW := reg w, outH := reg h } }

/-- `HASH_ENC` (40_commands.md R151, 45_dct_hash.md R320). -/
def execHashEnc (s : State) : Host.Outcome State Fault Refusal :=
  s.command s.hashEncAdmission fun _ =>
    ((s.openDest .out).putOut (hashEncodeWith s.params.numerics s.regs.hW.toNat s.regs.hH.toNat s.hashPixels) 0 0).complete .out

/-! ### Decode (45_dct_hash.md R340 to R350) -/

/-- `ac_start` (30_encoding.md R115). -/
def HashHeader.acStart (h : HashHeader) : Nat := if h.hasAlpha then 6 else 5

/-- AC nibbles of the luminance channel (45_dct_hash.md R341, R345). -/
def HashHeader.lCount (h : HashHeader) : Nat := acCount (max 3 h.lx) (max 3 h.ly)

/-- `nTotal` (45_dct_hash.md R345). -/
def HashHeader.nTotal (h : HashHeader) : Nat :=
  h.lCount + acCount 3 3 + acCount 3 3 + (if h.hasAlpha then acCount 5 5 else 0)

/-- The hash length the header implies (45_dct_hash.md R345). -/
def HashHeader.need (h : HashHeader) : Nat := h.acStart + (h.nTotal + 1) / 2

/-- `rhu(32 * a / b)` (45_dct_hash.md R342). -/
def side32 (a b : Nat) : Nat := (64 * a + b) / (2 * b)

/-- Output width (45_dct_hash.md R342). -/
def HashHeader.outW (h : HashHeader) : Nat := if h.ly < h.lx then 32 else side32 h.lx h.ly

/-- Output height (45_dct_hash.md R342). -/
def HashHeader.outH (h : HashHeader) : Nat := if h.ly < h.lx then side32 h.ly h.lx else 32

/-- AC nibble number `k` of a hash (30_encoding.md R115). -/
def acNibbleAt (bytes : List Byte) (acStart k : Nat) : Nat :=
  (bytes.getD (acStart + k / 2) 0).toNat / 16 ^ (k % 2) % 16

section

variable {N : Type} (ns : NumberSystem N)

/-- One channel to decode: its DC value and its AC terms with their frequency pairs (45_dct_hash.md R343). -/
structure Spectrum (N : Type) where
  dc : N
  ac : List ((Nat × Nat) × N)

/-- The AC terms of a channel whose first nibble is number `k0`: `(N/7.5 - 1) * scale` (45_dct_hash.md R343). -/
def spectrum (bytes : List Byte) (acStart k0 nx ny : Nat) (dc scale : N) : Spectrum N where
  dc := dc
  ac := (acPairs nx ny).zipIdx.map fun c =>
    (c.1, ns.mul (ns.sub (ns.div (ns.ofNat (acNibbleAt bytes acStart (k0 + c.2))) (ns.frac 15 2)) (ns.ofNat 1)) scale)

/-- `value(x, y)` of a channel in a `w` by `h` output (45_dct_hash.md R344): the DC value plus the sum of the AC terms in their order (log
entry 26). -/
def Spectrum.value (c : Spectrum N) (w h x y : Nat) : N :=
  ns.add c.dc (ns.sum (c.ac.map fun v =>
    ns.mul (ns.mul (ns.mul v.2 (ns.ofNat 2)) (ns.wave w v.1.1 x)) (ns.wave h v.1.2 y)))

/-- The four channels of a hash (45_dct_hash.md R340, R341, R343). -/
structure Spectra (N : Type) where
  l : Spectrum N
  p : Spectrum N
  q : Spectrum N
  a : Spectrum N

/-- Field values and AC terms of a hash (45_dct_hash.md R340 to R343); chroma scales are boosted by 1.25; without alpha, `a = 1`. -/
def spectraOf (h : HashHeader) (bytes : List Byte) : Spectra N :=
  let alphaByte := (bytes.getD 5 0).toNat
  let boosted := fun (scale : Nat) => ns.mul (ns.frac 5 4) (ns.frac scale 63)
  { l := spectrum ns bytes h.acStart 0 (max 3 h.lx) (max 3 h.ly) (ns.frac h.lDc 63) (ns.frac h.lScale 31)
    p := spectrum ns bytes h.acStart h.lCount 3 3 (ns.offset h.pDc) (boosted h.pScale)
    q := spectrum ns bytes h.acStart (h.lCount + acCount 3 3) 3 3 (ns.offset h.qDc) (boosted h.qScale)
    a := if h.hasAlpha then
        spectrum ns bytes h.acStart (h.lCount + acCount 3 3 + acCount 3 3) 5 5 (ns.frac (alphaByte % 16) 15)
          (ns.frac (alphaByte / 16) 15)
      else { dc := ns.ofNat 1, ac := [] } }

/-- One output pixel (45_dct_hash.md R346): `b = l - (2/3)p`, `r = (3l - b + q)/2`, `g = r - q`. -/
def decodePixel (sp : Spectra N) (w h x y : Nat) : Pixel :=
  let l := sp.l.value ns w h x y
  let p := sp.p.value ns w h x y
  let q := sp.q.value ns w h x y
  let b := ns.sub l (ns.mul (ns.frac 2 3) p)
  let r := ns.div (ns.add (ns.sub (ns.mul (ns.ofNat 3) l) b) q) (ns.ofNat 2)
  let g := ns.sub r q
  { r := ns.byte r, g := ns.byte g, b := ns.byte b, a := ns.byte (sp.a.value ns w h x y) }

/-- The decoded image, row-major (45_dct_hash.md R350). -/
def hashDecode (hd : HashHeader) (bytes : List Byte) : List Pixel :=
  let sp := spectraOf ns hd bytes
  (List.range hd.outH).flatMap fun y => (List.range hd.outW).map fun x => decodePixel ns sp hd.outW hd.outH x y

end

/-- The decoded image under the implementation's `NUMERICS` (45_dct_hash.md R363). -/
def hashDecodeWith (n : Numerics) (hd : HashHeader) (bytes : List Byte) : List Pixel :=
  match n with
  | .exactReals => hashDecode exactReals hd bytes
  | .other => hashDecode Config.numerics hd bytes

/-- The hash bytes a command reads: the payload up to what the header implies; bytes beyond are ignored (45_dct_hash.md R349). -/
def State.hashBytes (s : State) : List Byte := s.bytesAt .inp s.regs.inOff.toNat s.header.need

/-- Admission checks of HASH_DEC, in order (40_commands.md R152). The first is of the sequencer's class with the command's unit. -/
def State.hashDecAdmission (s : State) : Option (FaultCode × UnitId) :=
  firstFailing .dct [
    (s.payloadInRange, .paramRange),
    (5 ≤ s.payloadLen, .hashShort),
    (s.header.grid != 0, .hashGridZero),
    (s.header.need ≤ s.payloadLen, .hashShort)]

/-- `HASH_DEC` (40_commands.md R152, 45_dct_hash.md R350). -/
def execHashDec (s : State) : Host.Outcome State Fault Refusal :=
  s.command s.hashDecAdmission fun _ =>
    ((s.openDest .out).putOut ((hashDecodeWith s.params.numerics s.header s.hashBytes).flatMap Pixel.bytes) s.header.outW s.header.outH).complete .out

/-! ### Header queries (45_dct_hash.md R360, R361) -/

/-- The result group written (10_state.md R35). -/
def State.putRes (s : State) (r0 r1 r2 r3 : Nat) : State :=
  { s with regs := { s.regs with res0 := reg r0, res1 := reg r1, res2 := reg r2, res3 := reg r3 } }

/-- `clamp(v, 0, 378)` (45_dct_hash.md R360). -/
def clamp378 (v : Int) : Nat := (max 0 (min 378 v)).toNat

/-- `RES0` of HASH_AVG (45_dct_hash.md R360). -/
def HashHeader.avgR (h : HashHeader) : Nat := clamp378 (6 * h.lDc + 4 * h.pDc + 6 * h.qDc - 315)

/-- `RES1` of HASH_AVG (45_dct_hash.md R360). -/
def HashHeader.avgG (h : HashHeader) : Nat := clamp378 (6 * h.lDc + 4 * h.pDc - 6 * h.qDc + 63)

/-- `RES2` of HASH_AVG (45_dct_hash.md R360). -/
def HashHeader.avgB (h : HashHeader) : Nat := clamp378 (6 * h.lDc - 8 * h.pDc + 252)

/-- The header of `header24` alone: HASH_AVG does not read `H[3]` and `H[4]` (40_commands.md R153). -/
def State.avgHeader (s : State) : HashHeader := hashHeader s.header24 0

/-- Admission checks of HASH_AVG, in order (40_commands.md R153). -/
def State.hashAvgAdmission (s : State) : Option (FaultCode × UnitId) :=
  firstFailing .dct [
    (s.payloadInRange, .paramRange),
    (5 ≤ s.payloadLen && (!s.avgHeader.hasAlpha || 6 ≤ s.payloadLen), .hashShort)]

/-- `RES3` of HASH_AVG: `A_DC`, or 15 without alpha (45_dct_hash.md R360). -/
def State.avgA (s : State) : Nat := if s.avgHeader.hasAlpha then s.payloadByte 5 % 16 else 15

/-- `HASH_AVG` (40_commands.md R153, 45_dct_hash.md R360). -/
def execHashAvg (s : State) : Host.Outcome State Fault Refusal :=
  s.command s.hashAvgAdmission fun _ =>
    ((s.openDest .res).putRes s.avgHeader.avgR s.avgHeader.avgG s.avgHeader.avgB s.avgA).complete .res

/-- Admission checks of HASH_ASPECT, in order (40_commands.md R154). -/
def State.hashAspectAdmission (s : State) : Option (FaultCode × UnitId) :=
  firstFailing .dct [
    (s.payloadInRange, .paramRange),
    (5 ≤ s.payloadLen, .hashShort),
    (s.header.grid != 0, .hashGridZero)]

/-- `HASH_ASPECT` (40_commands.md R154, 45_dct_hash.md R361). -/
def execHashAspect (s : State) : Host.Outcome State Fault Refusal :=
  s.command s.hashAspectAdmission fun _ => ((s.openDest .res).putRes s.header.lx s.header.ly 0 0).complete .res

end Sys2Proof.Machine
end

