-- ==== Sys2Proof/Machine/Pseudo.lean ====
section
/-! DEFINITION. The pseudo-commands (30_encoding.md R121, 40_commands.md R155 to R157): each is expanded to its sequence of host
actions, put in front of the host's queue; it stops at the first command that ends in FAULT (log entry 5). -/

namespace Sys2Proof.Machine

/-- An action that waits for `PHASE` to leave `BUSY` (30_encoding.md R120). -/
def waiting (op : HostOp) : HostItem := { early := false, op := op }

/-- A sequence of actions as queue items: after each `CMD` write the rest is dropped if the command ended in FAULT
(40_commands.md R155, R146; log entry 5). -/
def stoppingItems : List HostOp → List HostItem
  | [] => []
  | op :: rest =>
    match op with
    | .writeReg 0 _ => waiting op :: waiting (.stopIfFault (stoppingItems rest).length) :: stoppingItems rest
    | _ => waiting op :: stoppingItems rest

/-- The actions of `FRAME(payload, off, rect, ctl)` in order (40_commands.md R155). -/
def frameOps (payload : List Byte) (off : Word) (rect : Rect) (ctl : Word) : List HostOp :=
  [.writeBuf .inp 0 payload, .writeReg 0x03 (reg payload.length), .writeReg 0x04 off,
   .writeReg 0x00 2,
   .writeReg 0x10 rect.x, .writeReg 0x11 rect.y, .writeReg 0x12 rect.w, .writeReg 0x13 rect.h,
   .writeReg 0x00 3,
   .writeReg 0x14 ctl,
   .writeReg 0x00 5,
   .readOut]

/-- The register and buffer writes of DECODE_STILL and DECODE_ANIM, then `CMD CANVAS_INIT` (40_commands.md R156, R157). -/
def imageOps (a : ImageArgs) : List HostOp :=
  [.writeReg 0x08 a.w, .writeReg 0x09 a.h, .writeReg 0x0A a.fmt, .writeReg 0x0B (reg a.palette.length), .writeReg 0x0C a.trCtl,
   .writeReg 0x0D a.key0, .writeReg 0x0E a.key1, .writeReg 0x0F a.key2,
   .writeBuf .pal 0 (a.palette.flatMap (fun c => [c.r, c.g, c.b])), .writeBuf .trns 0 a.trns,
   .writeReg 0x00 4]

/-- Put a sequence of host actions in front of the queue. -/
def State.expand (s : State) (ops : List HostOp) : State := { s with script := stoppingItems ops ++ s.script }

/-- `FRAME` (40_commands.md R155). -/
def execFrame (a : FrameArgs) (s : State) : Host.Outcome State Fault Refusal :=
  .next (s.expand (frameOps a.payload a.off a.rect a.ctl))

/-- `DECODE_STILL` (40_commands.md R156): one frame over the whole image, `F_CTL = 0`. -/
def execDecodeStill (a : StillArgs) (s : State) : Host.Outcome State Fault Refusal :=
  .next (s.expand (imageOps a.image ++
    frameOps a.payload 2 { x := 0, y := 0, w := a.image.w, h := a.image.h } 0))

/-- `DECODE_ANIM` (40_commands.md R157): the frames in list order. -/
def execDecodeAnim (a : AnimArgs) (s : State) : Host.Outcome State Fault Refusal :=
  .next (s.expand (imageOps a.image ++ a.frames.flatMap (fun f => frameOps f.payload 2 f.rect f.ctl)))

end Sys2Proof.Machine
end

