-- ==== Sys2Proof/Machine/Scanline.lean ====
section
/-! DEFINITION. Units U2 SCANLINE and U3 DEINTERLACE (42_scanline.md, 43_deinterlace.md): the command RECON, and one meaning for each
filter-type byte. One scanline is one step: its filter byte is the instruction, the rest of the line its data. -/

namespace Sys2Proof.Machine

/-! ### Geometry (43_deinterlace.md R280 to R283, 42_scanline.md R243 to R245) -/

/-- `ceil((extent - start) / step)` if the pass starts inside the image, else 0 (43_deinterlace.md R281). -/
def passExtent (extent start step : Nat) : Nat := if start < extent then (extent - start + step - 1) / step else 0

/-- `passlist(W, H, interlaced)` (43_deinterlace.md R282). -/
def passList (w h : Nat) (interlaced : Bool) : List Pass :=
  if interlaced then
    passTuples.map (fun (sr, sc, rs, cs) =>
      { sr := sr, sc := sc, rs := rs, cs := cs, pw := passExtent w sc cs, ph := passExtent h sr rs })
  else [{ sr := 0, sc := 0, rs := 1, cs := 1, pw := w, ph := h }]

/-- A pass with no pixels has no scanlines (43_deinterlace.md R283). -/
def Pass.isEmpty (p : Pass) : Bool := p.pw == 0 || p.ph == 0

/-- `channels(COLORTYPE)` (42_scanline.md R241). -/
def channels (colorType : Nat) : Nat :=
  match colorType with
  | 2 => 3
  | 4 => 2
  | 6 => 4
  | _ => 1

/-- The 15 legal pairs of colour type and bit depth (42_scanline.md R241, 90_conflicts.md C2, C6). -/
def legalPair (colorType depth : Nat) : Bool :=
  match colorType with
  | 0 => depth ∈ [1, 2, 4, 8, 16]
  | 2 => depth ∈ [8, 16]
  | 3 => depth ∈ [1, 2, 4, 8]
  | 4 => depth ∈ [8, 16]
  | 6 => depth ∈ [8, 16]
  | _ => false

/-- Transparency mode legality (42_scanline.md R242). -/
def legalTrMode (colorType mode : Nat) : Bool :=
  match mode with
  | 0 => true
  | 1 => colorType == 3
  | 2 => colorType == 0
  | _ => colorType == 2

/-- `bits_per_pixel` (42_scanline.md R243). -/
def State.bitsPerPixel (s : State) : Nat := channels s.colorType * s.bitDepth

/-- `bpp`, the filter's neighbour distance in bytes (42_scanline.md R243). -/
def State.bpp (s : State) : Nat := max 1 (s.bitsPerPixel / 8)

/-- `rowbytes(pw)` (42_scanline.md R244). -/
def State.rowbytes (s : State) (pw : Nat) : Nat := (pw * s.bitsPerPixel + 7) / 8

/-- The pass list of the image RECON reconstructs (42_scanline.md R240). -/
def State.passes (s : State) : List Pass := passList s.regs.fW.toNat s.regs.fH.toNat s.interlaced

/-- Scanline bytes of one pass; an empty pass has none (42_scanline.md R245, 43_deinterlace.md R283). -/
def State.passBytes (s : State) (p : Pass) : Nat := if p.isEmpty then 0 else p.ph * (1 + s.rowbytes p.pw)

/-- `need` (42_scanline.md R245). -/
def State.streamNeed (s : State) : Nat := (s.passes.map s.passBytes).sum

/-! ### The command RECON (40_commands.md R148) -/

/-- Index of the first non-empty pass at or after `i` (42_scanline.md R240: an empty pass is skipped). -/
def nextPass (ps : List Pass) (i : Nat) : Nat := i + ((ps.drop i).takeWhile Pass.isEmpty).length

/-- Admission checks of RECON, in order (40_commands.md R148). -/
def State.reconAdmission (s : State) : Option (FaultCode × UnitId) :=
  firstFailing .scanline [
    (s.valid.raw, .bufferNotValid),
    (legalPair s.colorType s.bitDepth, .badPairing),
    (1 ≤ s.regs.fW.toNat && 1 ≤ s.regs.fH.toNat && 4 * s.regs.fW.toNat * s.regs.fH.toNat ≤ s.params.pixMax, .paramRange),
    (legalTrMode s.colorType s.trMode && (s.colorType != 3 || s.regs.palN.toNat ≤ 256) && (s.trMode != 1 || s.trN ≤ 256),
      .paramRange),
    (s.streamNeed ≤ s.regs.rawLen.toNat, .shortImageData)]

/-- Go to pass `i`: row 0, `PRIOR` all zero (42_scanline.md R240, 43_deinterlace.md R285). -/
def State.startPass (s : State) (i pos : Nat) : State :=
  { s with u2 := { passIdx := i, row := 0, pos := pos, cur := s.u2.cur,
                   prior := List.replicate (match s.passes[i]? with | some p => s.rowbytes p.pw | none => 0) 0 } }

/-- `RECON` (40_commands.md R148): admission, then scanlines from the start of `RAW`. -/
def execRecon (s : State) : Host.Outcome State Fault Refusal :=
  s.command s.reconAdmission fun _ =>
    ((s.openDest .tile).startPass (nextPass s.passes 0) 0).setPhase (.busy .scanline)

/-! ### Filter reversal (42_scanline.md R246 to R251) -/

/-- The five legal filter types (30_encoding.md R113). -/
inductive Filter where
  | none | sub | up | average | paeth
  deriving DecidableEq, Repr

/-- `paeth(a, b, c)` over unbounded integers (42_scanline.md R251). -/
def paeth (a b c : Nat) : Nat :=
  let p : Int := (a : Int) + b - c
  let pa := (p - a).natAbs
  let pb := (p - b).natAbs
  let pc := (p - c).natAbs
  if pa ≤ pb ∧ pa ≤ pc then a else if pb ≤ pc then b else c

/-- `predictor(ft, a, b, c)` (42_scanline.md R247 to R251). -/
def predictor (ft : Filter) (a b c : Nat) : Nat :=
  match ft with
  | .none => 0
  | .sub => a
  | .up => b
  | .average => (a + b) / 2
  | .paeth => paeth a b c

/-- `unfilter` from byte `done.length` on (42_scanline.md R246): `done` holds the reconstructed bytes, last first, so the left
neighbour is `done[bpp - 1]`; neighbours outside the line are 0, sums are modulo 256. -/
def unfilterFrom (ft : Filter) (bpp : Nat) (prior : List Byte) (done : List Byte) : List Byte → List Byte
  | [] => done.reverse
  | x :: rest =>
    let i := done.length
    let a := (done.getD (bpp - 1) 0).toNat
    let b := (prior.getD i 0).toNat
    let c := if bpp ≤ i then (prior.getD (i - bpp) 0).toNat else 0
    unfilterFrom ft bpp prior (BitVec.ofNat 8 (x.toNat + predictor ft a b c) :: done) rest

/-- `unfilter(ft, CUR, PRIOR, rb)` (42_scanline.md R246). -/
def unfilter (ft : Filter) (bpp : Nat) (cur prior : List Byte) : List Byte := unfilterFrom ft bpp prior [] cur

/-! ### Colour expansion (42_scanline.md R255 to R260) -/

/-- 255 or, for a pixel that matches the colour key, 0 (42_scanline.md R260). -/
def keyAlpha (isKey : Bool) : Byte := if isKey then 0 else 255

/-- `pixel(CUR, col)`; `none` is PALETTE_INDEX_RANGE (42_scanline.md R255 to R259). -/
def State.pixel (s : State) (cur : List Byte) (col : Nat) : Option Pixel :=
  let d := s.bitDepth
  let v := fun k => samp d cur k
  match s.colorType with
  | 0 =>
    let g := to8 d (v col)
    some { r := g, g := g, b := g, a := keyAlpha (s.trMode == 2 && v col == keySample s.regs.key0) }
  | 2 =>
    let r := v (3 * col)
    let g := v (3 * col + 1)
    let b := v (3 * col + 2)
    some { r := to8 d r, g := to8 d g, b := to8 d b,
           a := keyAlpha (s.trMode == 3 && r == keySample s.regs.key0 && g == keySample s.regs.key1 &&
             b == keySample s.regs.key2) }
  | 3 =>
    let i := v col
    if s.regs.palN.toNat ≤ i then none
    else some { r := s.byteAt .pal (3 * i), g := s.byteAt .pal (3 * i + 1), b := s.byteAt .pal (3 * i + 2),
                a := if s.trMode == 1 && i < s.trN then s.byteAt .trns i else 255 }
  | 4 =>
    let g := to8 d (v (2 * col))
    some { r := g, g := g, b := g, a := to8 d (v (2 * col + 1)) }
  | _ =>
    some { r := to8 d (v (4 * col)), g := to8 d (v (4 * col + 1)), b := to8 d (v (4 * col + 2)),
           a := to8 d (v (4 * col + 3)) }

/-! ### One line (42_scanline.md R240) -/

/-- The pass being reconstructed. -/
def State.currentPass (s : State) : Pass :=
  s.passes.getD s.u2.passIdx { sr := 0, sc := 0, rs := 1, cs := 1, pw := 0, ph := 0 }

/-- `CUR` before reversal: the line's data bytes in `RAW` (42_scanline.md R240). -/
def State.lineData (s : State) : List Byte := s.bytesAt .raw (s.u2.pos + 1) (s.rowbytes s.currentPass.pw)

/-- `CUR` after reversal (42_scanline.md R246). -/
def State.lineOut (s : State) (ft : Filter) : List Byte := unfilter ft s.bpp s.lineData s.u2.prior

/-- Index in `TILE` of pixel `col` of the line being reconstructed: it is the image's pixel `(sc + col*cs, sr + r*rs)`
(43_deinterlace.md R282). -/
def State.lineIndex (s : State) (col : Nat) : Nat :=
  4 * ((s.currentPass.sr + s.u2.row * s.currentPass.rs) * s.regs.fW.toNat + (s.currentPass.sc + col * s.currentPass.cs))

/-- The line read and reversed into `CUR`, the read position moved past it. -/
def State.takeLine (s : State) (ft : Filter) : State :=
  { s with u2 := { s.u2 with pos := s.u2.pos + (1 + s.rowbytes s.currentPass.pw), cur := s.lineOut ft } }

/-- The line's pixels expanded and written to `TILE` from column `col` on, `n` of them. An index outside the palette raises
PALETTE_INDEX_RANGE at its pixel (42_scanline.md R240, R259). -/
def State.writePixels (s : State) : (n col : Nat) → Res Unit
  | 0, _ => .ok () s
  | n + 1, col =>
    match s.pixel s.u2.cur col with
    | none => .raised (s.raise .paletteIndexRange .scanline)
    | some px => State.writePixels (s.writeBytes .tile (s.lineIndex col) px.bytes) n (col + 1)

/-- After a line: the next row of the pass, or the next non-empty pass, or the end of RECON (42_scanline.md R240). -/
def State.nextLine (s : State) : State :=
  if s.u2.row + 1 < s.currentPass.ph then { s with u2 := { s.u2 with row := s.u2.row + 1, prior := s.u2.cur } }
  else if nextPass s.passes (s.u2.passIdx + 1) < s.passes.length then
    s.startPass (nextPass s.passes (s.u2.passIdx + 1)) s.u2.pos
  else { s with
    u2 := { s.u2 with prior := s.u2.cur },
    regs := { s.regs with tileW := s.regs.fW, tileH := s.regs.fH } }.complete .tile

/-- One scanline with a legal filter type (42_scanline.md R240, R246). -/
def State.reconLine (s : State) (ft : Filter) : State :=
  match (s.takeLine ft).writePixels s.currentPass.pw 0 with
  | .ok _ t => t.nextLine
  | .raised t => t

/-- Filter type 0, None (42_scanline.md R247). -/
def execFilterNone (s : State) : Host.Outcome State Fault Refusal := .next (s.reconLine .none)

/-- Filter type 1, Sub (42_scanline.md R248). -/
def execFilterSub (s : State) : Host.Outcome State Fault Refusal := .next (s.reconLine .sub)

/-- Filter type 2, Up (42_scanline.md R249). -/
def execFilterUp (s : State) : Host.Outcome State Fault Refusal := .next (s.reconLine .up)

/-- Filter type 3, Average (42_scanline.md R250). -/
def execFilterAverage (s : State) : Host.Outcome State Fault Refusal := .next (s.reconLine .average)

/-- Filter type 4, Paeth (42_scanline.md R251). -/
def execFilterPaeth (s : State) : Host.Outcome State Fault Refusal := .next (s.reconLine .paeth)

/-- Filter types 5 to 255 (42_scanline.md R252). -/
def execFilterIllegal (_ft : Byte) (s : State) : Host.Outcome State Fault Refusal :=
  .next (s.raise .badFilterType .scanline)

end Sys2Proof.Machine
end

