-- ==== Sys2Proof/Machine/Dispatch.lean ====
section
/-! DEFINITION. One arm per instruction. -/

namespace Sys2Proof.Machine

def exec (i : Instr) (s : State) : Host.Outcome State Fault Refusal :=
  match i with
  | .nop => Sys2Proof.Machine.execNop s
  | .clear => Sys2Proof.Machine.execClear s
  | .inflate => Sys2Proof.Machine.execInflate s
  | .recon => Sys2Proof.Machine.execRecon s
  | .canvasInit => Sys2Proof.Machine.execCanvasInit s
  | .compose => Sys2Proof.Machine.execCompose s
  | .hashEnc => Sys2Proof.Machine.execHashEnc s
  | .hashDec => Sys2Proof.Machine.execHashDec s
  | .hashAvg => Sys2Proof.Machine.execHashAvg s
  | .hashAspect => Sys2Proof.Machine.execHashAspect s
  | .cmdReserved6To7 op => Sys2Proof.Machine.execCmdReserved6To7 op s
  | .cmdReserved12To15 op => Sys2Proof.Machine.execCmdReserved12To15 op s
  | .frame a => Sys2Proof.Machine.execFrame a s
  | .decodeStill a => Sys2Proof.Machine.execDecodeStill a s
  | .decodeAnim a => Sys2Proof.Machine.execDecodeAnim a s
  | .hdr bfinal btype => Sys2Proof.Machine.execHdr bfinal btype s
  | .stored => Sys2Proof.Machine.execStored s
  | .fixed => Sys2Proof.Machine.execFixed s
  | .dyn => Sys2Proof.Machine.execDyn s
  | .btypeIllegal => Sys2Proof.Machine.execBtypeIllegal s
  | .dynCounts hlit hdist hclen => Sys2Proof.Machine.execDynCounts hlit hdist hclen s
  | .dynMetaLengths length => Sys2Proof.Machine.execDynMetaLengths length s
  | .dynCodeLengths => Sys2Proof.Machine.execDynCodeLengths s
  | .cln n => Sys2Proof.Machine.execCln n s
  | .cl16 => Sys2Proof.Machine.execCl16 s
  | .cl17 => Sys2Proof.Machine.execCl17 s
  | .cl18 => Sys2Proof.Machine.execCl18 s
  | .lit byte => Sys2Proof.Machine.execLit byte s
  | .eob => Sys2Proof.Machine.execEob s
  | .len257 => Sys2Proof.Machine.execLen257 s
  | .len258 => Sys2Proof.Machine.execLen258 s
  | .len259 => Sys2Proof.Machine.execLen259 s
  | .len260 => Sys2Proof.Machine.execLen260 s
  | .len261 => Sys2Proof.Machine.execLen261 s
  | .len262 => Sys2Proof.Machine.execLen262 s
  | .len263 => Sys2Proof.Machine.execLen263 s
  | .len264 => Sys2Proof.Machine.execLen264 s
  | .len265 => Sys2Proof.Machine.execLen265 s
  | .len266 => Sys2Proof.Machine.execLen266 s
  | .len267 => Sys2Proof.Machine.execLen267 s
  | .len268 => Sys2Proof.Machine.execLen268 s
  | .len269 => Sys2Proof.Machine.execLen269 s
  | .len270 => Sys2Proof.Machine.execLen270 s
  | .len271 => Sys2Proof.Machine.execLen271 s
  | .len272 => Sys2Proof.Machine.execLen272 s
  | .len273 => Sys2Proof.Machine.execLen273 s
  | .len274 => Sys2Proof.Machine.execLen274 s
  | .len275 => Sys2Proof.Machine.execLen275 s
  | .len276 => Sys2Proof.Machine.execLen276 s
  | .len277 => Sys2Proof.Machine.execLen277 s
  | .len278 => Sys2Proof.Machine.execLen278 s
  | .len279 => Sys2Proof.Machine.execLen279 s
  | .len280 => Sys2Proof.Machine.execLen280 s
  | .len281 => Sys2Proof.Machine.execLen281 s
  | .len282 => Sys2Proof.Machine.execLen282 s
  | .len283 => Sys2Proof.Machine.execLen283 s
  | .len284 => Sys2Proof.Machine.execLen284 s
  | .len285 => Sys2Proof.Machine.execLen285 s
  | .llIllegal286To287 sym => Sys2Proof.Machine.execLlIllegal286To287 sym s
  | .dist0 => Sys2Proof.Machine.execDist0 s
  | .dist1 => Sys2Proof.Machine.execDist1 s
  | .dist2 => Sys2Proof.Machine.execDist2 s
  | .dist3 => Sys2Proof.Machine.execDist3 s
  | .dist4 => Sys2Proof.Machine.execDist4 s
  | .dist5 => Sys2Proof.Machine.execDist5 s
  | .dist6 => Sys2Proof.Machine.execDist6 s
  | .dist7 => Sys2Proof.Machine.execDist7 s
  | .dist8 => Sys2Proof.Machine.execDist8 s
  | .dist9 => Sys2Proof.Machine.execDist9 s
  | .dist10 => Sys2Proof.Machine.execDist10 s
  | .dist11 => Sys2Proof.Machine.execDist11 s
  | .dist12 => Sys2Proof.Machine.execDist12 s
  | .dist13 => Sys2Proof.Machine.execDist13 s
  | .dist14 => Sys2Proof.Machine.execDist14 s
  | .dist15 => Sys2Proof.Machine.execDist15 s
  | .dist16 => Sys2Proof.Machine.execDist16 s
  | .dist17 => Sys2Proof.Machine.execDist17 s
  | .dist18 => Sys2Proof.Machine.execDist18 s
  | .dist19 => Sys2Proof.Machine.execDist19 s
  | .dist20 => Sys2Proof.Machine.execDist20 s
  | .dist21 => Sys2Proof.Machine.execDist21 s
  | .dist22 => Sys2Proof.Machine.execDist22 s
  | .dist23 => Sys2Proof.Machine.execDist23 s
  | .dist24 => Sys2Proof.Machine.execDist24 s
  | .dist25 => Sys2Proof.Machine.execDist25 s
  | .dist26 => Sys2Proof.Machine.execDist26 s
  | .dist27 => Sys2Proof.Machine.execDist27 s
  | .dist28 => Sys2Proof.Machine.execDist28 s
  | .dist29 => Sys2Proof.Machine.execDist29 s
  | .dIllegal30To31 sym => Sys2Proof.Machine.execDIllegal30To31 sym s
  | .filterNone => Sys2Proof.Machine.execFilterNone s
  | .filterSub => Sys2Proof.Machine.execFilterSub s
  | .filterUp => Sys2Proof.Machine.execFilterUp s
  | .filterAverage => Sys2Proof.Machine.execFilterAverage s
  | .filterPaeth => Sys2Proof.Machine.execFilterPaeth s
  | .filterIllegal ft => Sys2Proof.Machine.execFilterIllegal ft s
  | .blendSource => Sys2Proof.Machine.execBlendSource s
  | .blendOver => Sys2Proof.Machine.execBlendOver s
  | .blendReserved2To3 blend => Sys2Proof.Machine.execBlendReserved2To3 blend s
  | .disposeNone => Sys2Proof.Machine.execDisposeNone s
  | .disposeClearToBackground => Sys2Proof.Machine.execDisposeClearToBackground s
  | .disposeRestorePrevious => Sys2Proof.Machine.execDisposeRestorePrevious s
  | .disposeReserved3 => Sys2Proof.Machine.execDisposeReserved3 s

end Sys2Proof.Machine
end

