-- ==== Sys2Proof/Machine/Fetch.lean ====
section
/-! DEFINITION. What one step does: the host's next action, or the running unit's next element, fetched, decoded and executed
(10_state.md R40, 30_encoding.md R119, R120, 40_commands.md R140, 41_inflate.md R179; log entries 1 to 4); and placing an instruction
where the next step finds it (log entry 14). -/

namespace Sys2Proof.Machine

/-! ### The unit -/

/-- The format and value of what the running unit reads next (41_inflate.md R178 to R180, R186 to R188, R198; 42_scanline.md
R240; 44_compositor.md R291). A field that is latched before the next one is read stays latched if that read raises (41_inflate.md
R180, R186; 60_exceptions.md R390). -/
def State.fetch (s : State) (a : Await) : Res (Format × Nat) :=
  match a with
  | .header =>
    s.getbit.bind fun b s =>
      (State.getbits { s with u1 := { s.u1 with bfinal := BitVec.ofNat 1 b } } 2).bind fun t s => .ok (.hdr, b + 2 * t) s
  | .body => .ok (.body, s.u1.bfinal.toNat + 2 * s.u1.btype.toNat) s
  | .counts =>
    (s.getbits 5).bind fun l s =>
      (State.getbits { s with u1 := { s.u1 with hlit := l + 257 } } 5).bind fun d s =>
        (State.getbits { s with u1 := { s.u1 with hdist := d + 1 } } 4).bind fun c s =>
          .ok (.counts, l + 2 ^ 5 * d + 2 ^ 10 * c) s
  | .metaLength => (s.getbits 3).bind fun v s => .ok (.metaLength, v) s
  | .codeLengths => .ok (.codeLengths, 0) s
  | .clSymbol => (s.decodeSymbol s.clTable).bind fun v s => .ok (.cl, v) s
  | .llSymbol => (s.decodeSymbol s.llTable).bind fun v s => .ok (.ll, v) s
  | .dSymbol => (s.decodeSymbol s.dTable).bind fun v s => .ok (.d, v) s
  | .scanline => .ok (.filter, (s.byteAt .raw s.u2.pos).toNat) s
  | .blend => .ok (.blend, s.regs.fCtl.toNat) s
  | .dispose => .ok (.dispose, s.regs.fCtl.toNat) s

/-- Decode a value and execute the instruction it is. -/
def State.run (s : State) (f : Format) (w : Nat) : Host.Outcome State Fault Refusal :=
  match decode f w with
  | .ok i => exec i s
  | .error e => .refused (.notAnElement e)

/-- One row of the opcode table fetched, decoded and executed. Raising while it is read is a next state (60_exceptions.md R390). -/
def State.piece (s : State) (a : Await) : Host.Outcome State Fault Refusal :=
  match s.fetch a with
  | .ok (f, w) s' => s'.run f w
  | .raised s' => .next s'

/-- What is still to be read of the stream element that has begun. One element is a block header, a stored block, a whole dynamic
header, a meta symbol, or a literal/length symbol with the distance that belongs to it (10_state.md R40, 41_inflate.md R179). The
header's element takes in the body of a fixed block and the fault of an illegal one, which consume no bit (R184, R185; log
entry 3). -/
def State.rest? (s : State) : Option Await :=
  match s.phase with
  | .busy .body => if s.u1.btype = 1 ∨ s.u1.btype = 3 then some .body else none
  | .busy .counts => some .counts
  | .busy .metaLength => some .metaLength
  | .busy .codeLengths => some .codeLengths
  | .busy .dSymbol => some .dSymbol
  | .busy .header => none
  | .busy .clSymbol => none
  | .busy .llSymbol => none
  | .busy .scanline => none
  | .busy .blend => none
  | .busy .dispose => none
  | .idle => none
  | .done => none
  | .fault => none

/-- One element: its pieces one after another until nothing of it is left, at most `fuel + 1` of them. -/
def State.element (s : State) (a : Await) : (fuel : Nat) → Host.Outcome State Fault Refusal
  | 0 => s.piece a
  | fuel + 1 =>
    match s.piece a with
    | .next t =>
      match t.rest? with
      | some b => State.element t b fuel
      | none => .next t
    | .fault f => .fault f
    | .refused r => .refused r

/-- One step of the running unit is one element. The longest, a dynamic header, has 22 pieces. -/
def State.unitStep (s : State) (a : Await) : Host.Outcome State Fault Refusal := s.element a 31

/-- Time passes: a running unit makes a step, otherwise nothing happens (10_state.md R46). -/
def State.proceed (s : State) : Host.Outcome State Fault Refusal :=
  match s.phase with
  | .busy a => s.unitStep a
  | .idle => .next s
  | .done => .next s
  | .fault => .next s

/-! ### The host -/

/-- A host write of register `n`: number 0 is `CMD`, whose value is decoded and executed (10_state.md R21, R22, 40_commands.md R140). -/
def State.hostWriteReg (s : State) (n : Nat) (v : Word) : Host.Outcome State Fault Refusal :=
  if n = 0 then s.run .cmd v.toNat else .next (s.doWriteReg n v)

/-- One action of the host. -/
def State.act (s : State) (op : HostOp) : Host.Outcome State Fault Refusal :=
  match op with
  | .writeReg n v => s.hostWriteReg n v
  | .readReg n => .next (s.doReadReg n)
  | .writeBuf b i bytes => s.doWriteBuf b i bytes
  | .readBuf b i n => s.doReadBuf b i n
  | .readOut => s.doReadOut
  | .reset => .next s.doReset
  | .tick => s.proceed
  | .stopIfFault n => .next (s.doStopIfFault n)
  | .frame a => exec (.frame a) s
  | .decodeStill a => exec (.decodeStill a) s
  | .decodeAnim a => exec (.decodeAnim a) s

/-- One step of the machine: the host's next action when its turn has come, else the running unit. -/
def State.advance (s : State) : Host.Outcome State Fault Refusal :=
  match s.script with
  | [] => s.proceed
  | item :: rest =>
    if item.early || !s.phase.isBusy then State.act { s with script := rest } item.op else s.proceed

/-! ### Placing an instruction (the host's question, log entry 14) -/

/-- Bits, first bit lowest, as a number. -/
def bitsToNat : List Nat → Nat
  | [] => 0
  | b :: bs => b + 2 * bitsToNat bs

/-- `n` bits of `v`, least significant first. -/
def lsbBits (v : Nat) : (n : Nat) → List Nat
  | 0 => []
  | n + 1 => v % 2 :: lsbBits (v / 2) n

/-- `IN` and `IN_LEN` changed so that the stream goes on with these bits from `IPOS`, then with zeros: nine bytes are written from
the byte that holds bit `IPOS`, whose bits before `IPOS` are kept. -/
def State.placeBits (s : State) (bits : List Nat) : State :=
  let k := s.regs.ipos.toNat / 8
  let o := s.regs.ipos.toNat % 8
  let before := if o = 0 then 0 else (s.byteAt .inp k).toNat % 2 ^ o
  let s' := s.writeBytes .inp k (leBytes (before + 2 ^ o * bitsToNat bits) 9)
  { s' with regs := { s'.regs with inLen := reg (max s.regs.inLen.toNat (k + 9)) } }

/-- The state with the running unit about to read an element of format `f` whose value is `w`; a command word becomes the host's
next action. -/
def State.place (s : State) (f : Format) (w : Nat) : State :=
  match f with
  | .cmd => { s with script := { early := true, op := .writeReg 0 (BitVec.ofNat 32 w) } :: s.script }
  | .hdr => { s.placeBits (lsbBits w 3) with script := [], phase := .busy .header }
  | .body =>
    { s.placeBits [] with
      script := [], phase := .busy .body,
      u1 := { s.u1 with bfinal := BitVec.ofNat 1 w, btype := BitVec.ofNat 2 (w / 2) } }
  | .counts => { s.placeBits (lsbBits w 14) with script := [], phase := .busy .counts }
  | .metaLength => { s.placeBits (lsbBits w 3) with script := [], phase := .busy .metaLength }
  | .codeLengths => { s with script := [], phase := .busy .codeLengths }
  | .cl =>
    { s.placeBits (codeBits (List.replicate 19 5) w) with
      script := [], phase := .busy .clSymbol, u1 := { s.u1 with clLen := List.replicate 19 5 } }
  | .ll =>
    { s.placeBits (codeBits (fixedLl.map BitVec.toNat) w) with
      script := [], phase := .busy .llSymbol, u1 := { s.u1 with llLen := fixedLl, dLen := fixedD } }
  | .d =>
    { s.placeBits (codeBits (fixedD.map BitVec.toNat) w) with
      script := [], phase := .busy .dSymbol, u1 := { s.u1 with llLen := fixedLl, dLen := fixedD } }
  | .filter => { s.writeBytes .raw s.u2.pos [BitVec.ofNat 8 w] with script := [], phase := .busy .scanline }
  | .blend => { s with script := [], phase := .busy .blend, regs := { s.regs with fCtl := BitVec.ofNat 32 w } }
  | .dispose => { s with script := [], phase := .busy .dispose, regs := { s.regs with fCtl := BitVec.ofNat 32 w } }

end Sys2Proof.Machine
end

