-- ==== Sys2Proof/Machine/Step.lean ====
section
/-! DEFINITION. One step of the machine, and the state whose next step runs a given word of the opcode table. -/

namespace Sys2Proof.Machine

/-- One step (Machine/Fetch.lean). -/
def step (s : State) : Host.Outcome State Fault Refusal := s.advance

/-- The state whose next step runs the instruction that `decodeTableWord nbits w` reads (log entry 14). -/
def State.withFetchWord (s : State) (nbits w : Nat) : State := s.place (tableFormat nbits w) w

end Sys2Proof.Machine
end

