-- ==== Sys2Proof/Safety.lean ====
section
/-! DEFINITION. The terms claims are stated in: the invariants of the machine, the conditions under which an instruction completes,
and what an instruction leaves alone. -/

namespace Sys2Proof.Machine

/-! ### Where the machine stands -/

/-- The host has no action that is due while a unit runs. -/
abbrev State.Undisturbed (s : State) : Prop := s.script = [] ∨ ∃ item rest, s.script = item :: rest ∧ item.early = false

/-- A `CMD` write starts a command (40_commands.md R140). -/
abbrev State.Ready (s : State) : Prop := s.phase = .idle ∨ s.phase = .done

/-- The element is one of unit U1's. -/
def Await.isU1 : Await → Bool
  | .header => true
  | .body => true
  | .counts => true
  | .metaLength => true
  | .codeLengths => true
  | .clSymbol => true
  | .llSymbol => true
  | .dSymbol => true
  | .scanline => false
  | .blend => false
  | .dispose => false

/-- INFLATE is running. -/
def Phase.isU1 : Phase → Bool
  | .busy a => a.isU1
  | .idle => false
  | .done => false
  | .fault => false

/-! ### Invariants -/

/-- Every buffer is in canonical form (log entry 7). -/
abbrev State.MemoryInv (s : State) : Prop :=
  s.buf.inp.wf ∧ s.buf.raw.wf ∧ s.buf.tile.wf ∧ s.buf.canvas.wf ∧ s.buf.save.wf ∧ s.buf.out.wf ∧ s.buf.pal.wf ∧ s.buf.trns.wf

/-- `ERR` is 0 outside FAULT (10_state.md R34); `SAVE_VALID` is 1 only inside a COMPOSE whose dispose mode is restorePrevious
(10_state.md R42); a running COMPOSE has legal modes (40_commands.md R150); the flags of a running command's destinations are 0
(40_commands.md R143, 60_exceptions.md R390), and `IPOS` is unspecified while INFLATE runs; between two steps the running unit is
at the start of an element (10_state.md R40). -/
abbrev State.FlagInv (s : State) : Prop :=
  (s.phase ≠ .fault → s.regs.err = 0) ∧
  (s.valid.save = true → (s.phase = .busy .blend ∨ s.phase = .busy .dispose) ∧ s.disposeMode = 2) ∧
  (s.phase = .busy .blend → s.blendMode ≤ 1 ∧ s.disposeMode ≤ 2) ∧
  (s.phase = .busy .dispose → s.disposeMode ≤ 2) ∧
  (s.phase.isU1 = true → s.valid.raw = false ∧ s.iposKnown = false) ∧
  (s.phase = .busy .scanline → s.valid.tile = false) ∧
  (s.phase = .busy .blend ∨ s.phase = .busy .dispose → s.valid.canvas = false ∧ s.valid.out = false) ∧
  s.rest? = none

/-- The parameters are in their bounds (00_scope.md R5); the table RAMs have their sizes (10_state.md R39); `RAW_LEN`, `RAW_CAP`
and `RAW_MAX` are in order (41_inflate.md R175, R176); while INFLATE runs, `IPOS` is inside the payload (10_state.md R36). -/
abbrev State.InflateInv (s : State) : Prop :=
  s.params.Ok ∧
  s.u1.clLen.length = 19 ∧ s.u1.llLen.length = 288 ∧ s.u1.dLen.length = 32 ∧
  1 ≤ s.regs.rawCap.toNat ∧ s.regs.rawLen.toNat ≤ s.regs.rawCap.toNat ∧ s.regs.rawCap.toNat ≤ s.params.rawMax ∧
  (s.phase.isU1 = true → s.regs.inLen.toNat ≤ s.params.inMax ∧ s.regs.ipos.toNat ≤ 8 * s.regs.inLen.toNat)

/-- A legal image size: both sides at least 1, and its pixels fit a pixel buffer (40_commands.md R148, R149). -/
abbrev State.SizeOk (s : State) (w h : Word) : Prop :=
  1 ≤ w.toNat ∧ 1 ≤ h.toNat ∧ 4 * w.toNat * h.toNat ≤ s.params.pixMax

/-- The frame's rectangle lies inside the canvas (44_compositor.md R292). -/
abbrev State.RectInside (s : State) : Prop :=
  s.regs.fX.toNat + s.regs.fW.toNat ≤ s.regs.canvasW.toNat ∧ s.regs.fY.toNat + s.regs.fH.toNat ≤ s.regs.canvasH.toNat

/-- A valid tile and a valid canvas have a legal size (40_commands.md R148, R149); a running RECON is inside its pass list
(42_scanline.md R240); a running COMPOSE has a canvas and a rectangle inside it (40_commands.md R150). -/
abbrev State.SizeInv (s : State) : Prop :=
  s.params.Ok ∧
  (s.valid.tile = true → s.SizeOk s.regs.tileW s.regs.tileH) ∧
  (s.valid.canvas = true → s.SizeOk s.regs.canvasW s.regs.canvasH) ∧
  (s.phase = .busy .scanline → s.SizeOk s.regs.fW s.regs.fH ∧ s.u2.passIdx < s.passes.length ∧
    1 ≤ s.currentPass.pw ∧ s.u2.row < s.currentPass.ph) ∧
  (s.phase = .busy .blend ∨ s.phase = .busy .dispose → s.SizeOk s.regs.canvasW s.regs.canvasH ∧ s.RectInside)

/-- Every byte CORE or the host has written lies inside its buffer (20_memory.md R70, R71). -/
abbrev Memory.Below (m : Memory) (n : Nat) : Prop := ∀ c ∈ m, c.1 < n

/-- No buffer holds a byte at or beyond its capacity (10_state.md R38, 20_memory.md R71). -/
abbrev State.CapacityInv (s : State) : Prop :=
  Memory.Below s.buf.inp s.params.inMax ∧ Memory.Below s.buf.raw s.params.rawMax ∧ Memory.Below s.buf.tile s.params.pixMax ∧
  Memory.Below s.buf.canvas s.params.pixMax ∧ Memory.Below s.buf.save s.params.pixMax ∧ Memory.Below s.buf.out s.params.pixMax ∧
  Memory.Below s.buf.pal 768 ∧ Memory.Below s.buf.trns 256

/-- What holds in every run. -/
abbrev State.Inv (s : State) : Prop := s.MemoryInv ∧ s.FlagInv ∧ s.InflateInv ∧ s.SizeInv ∧ s.CapacityInv

/-! ### What instructions read -/

/-- Bit `k` of the stream (20_memory.md R72). -/
def State.streamBit (s : State) (k : Nat) : Nat := (s.byteAt .inp (k / 8)).toNat / 2 ^ (k % 8) % 2

/-- `n` stream bits from position `k` as a number, the first one lowest (20_memory.md R73). -/
def State.streamField (s : State) (k : Nat) : (n : Nat) → Nat
  | 0 => 0
  | n + 1 => s.streamBit k + 2 * s.streamField (k + 1) n

/-- At least `n` bits of the payload are left. -/
abbrev State.BitsLeft (s : State) (n : Nat) : Prop := s.regs.ipos.toNat + n ≤ 8 * s.regs.inLen.toNat

/-- `RAW` has room for `n` more bytes. -/
abbrev State.RoomFor (s : State) (n : Nat) : Prop := s.regs.rawLen.toNat + n ≤ s.params.rawMax

/-- The state with `IPOS` moved on by `n`. -/
def State.skip (s : State) (n : Nat) : State :=
  { s with regs := { s.regs with ipos := reg (s.regs.ipos.toNat + n) } }

/-- The stream position is inside a payload whose bit numbers fit a register (10_state.md R36). -/
abbrev State.StreamOk (s : State) : Prop := s.regs.ipos.toNat ≤ 8 * s.regs.inLen.toNat ∧ 8 * s.regs.inLen.toNat < 2 ^ 32

/-- The state after a block header read at `IPOS` (41_inflate.md R180). -/
def State.afterHeader (s : State) : State :=
  { s with
    regs := { s.regs with ipos := BitVec.ofNat 32 (s.regs.ipos.toNat + 3) },
    u1 := { s.u1 with
      bfinal := BitVec.ofNat 1 (s.streamBit s.regs.ipos.toNat),
      btype := BitVec.ofNat 2 (s.streamField (s.regs.ipos.toNat + 1) 2) },
    phase := .busy .body }

/-- In `t`, `n` bytes of `IN` from index `k` stand at the end of what `RAW` held in `s`, and nothing else of `RAW` has changed. -/
abbrev State.Stores (s t : State) (k n : Nat) : Prop :=
  t.regs.rawLen.toNat = s.regs.rawLen.toNat + n ∧
  (∀ j, j < n → t.byteAt .raw (s.regs.rawLen.toNat + j) = s.byteAt .inp (k + j)) ∧
  (∀ j, j < s.regs.rawLen.toNat ∨ s.regs.rawLen.toNat + n ≤ j → t.byteAt .raw j = s.byteAt .raw j)

/-- The `LEN` symbols with their base and number of extra bits (30_encoding.md R108). -/
def lengthSymbols : List (Instr × Nat × Nat) := [
   (.len257, 3, 0), (.len258, 4, 0), (.len259, 5, 0), (.len260, 6, 0), (.len261, 7, 0),
   (.len262, 8, 0), (.len263, 9, 0), (.len264, 10, 0), (.len265, 11, 1), (.len266, 13, 1),
   (.len267, 15, 1), (.len268, 17, 1), (.len269, 19, 2), (.len270, 23, 2), (.len271, 27, 2),
   (.len272, 31, 2), (.len273, 35, 3), (.len274, 43, 3), (.len275, 51, 3), (.len276, 59, 3),
   (.len277, 67, 4), (.len278, 83, 4), (.len279, 99, 4), (.len280, 115, 4), (.len281, 131, 5),
   (.len282, 163, 5), (.len283, 195, 5), (.len284, 227, 5), (.len285, 258, 0)]

/-- The `DIST` symbols with their base and number of extra bits (30_encoding.md R109). -/
def distanceSymbols : List (Instr × Nat × Nat) := [
   (.dist0, 1, 0), (.dist1, 2, 0), (.dist2, 3, 0), (.dist3, 4, 0), (.dist4, 5, 1),
   (.dist5, 7, 1), (.dist6, 9, 2), (.dist7, 13, 2), (.dist8, 17, 3), (.dist9, 25, 3),
   (.dist10, 33, 4), (.dist11, 49, 4), (.dist12, 65, 5), (.dist13, 97, 5), (.dist14, 129, 6),
   (.dist15, 193, 6), (.dist16, 257, 7), (.dist17, 385, 7), (.dist18, 513, 8), (.dist19, 769, 8),
   (.dist20, 1025, 9), (.dist21, 1537, 9), (.dist22, 2049, 10), (.dist23, 3073, 10), (.dist24, 4097, 11),
   (.dist25, 6145, 11), (.dist26, 8193, 12), (.dist27, 12289, 12), (.dist28, 16385, 13), (.dist29, 24577, 13)]

/-- `t` is `s` with the code-length sequence ended at `full`: `LL_LEN` holds its first `HLIT` lengths and `D_LEN` the next `HDIST`,
further entries being 0; symbols follow, or OVERSUBSCRIBED is raised if a Kraft sum exceeds 1 (10_state.md R39, 41_inflate.md R177,
R188). -/
abbrev State.SequenceEnds (s : State) (full : List (BitVec 4)) (t : State) : Prop :=
  t.u1 = { s.u1 with seq := full, llLen := t.u1.llLen, dLen := t.u1.dLen } ∧
  (∀ i, i < 288 → t.u1.llLen[i]? = some (if i < s.u1.hlit then full.getD i 0 else 0)) ∧
  (∀ j, j < 32 → t.u1.dLen[j]? = some (if j < s.u1.hdist then full.getD (s.u1.hlit + j) 0 else 0)) ∧
  (kraft (t.u1.llLen.map BitVec.toNat) ≤ 2 ^ 15 → kraft (t.u1.dLen.map BitVec.toNat) ≤ 2 ^ 15 →
    t = { s with u1 := t.u1, phase := .busy .llSymbol }) ∧
  (2 ^ 15 < kraft (t.u1.llLen.map BitVec.toNat) ∨ 2 ^ 15 < kraft (t.u1.dLen.map BitVec.toNat) →
    t = { s with u1 := t.u1, regs := { s.regs with err := 0x00010703 }, phase := .fault })

/-- The filter bytes with a predictor (30_encoding.md R113). -/
def filterRows : List (Instr × Filter) :=
  [(.filterNone, .none), (.filterSub, .sub), (.filterUp, .up), (.filterAverage, .average), (.filterPaeth, .paeth)]

/-- The 15 legal pairs (`COLORTYPE`, `BITDEPTH`) (42_scanline.md R241). -/
def legalPairs : List (Nat × Nat) :=
  [(0, 1), (0, 2), (0, 4), (0, 8), (0, 16), (2, 8), (2, 16), (3, 1), (3, 2), (3, 4), (3, 8), (4, 8), (4, 16), (6, 8), (6, 16)]

/-- The 15 legal pairs with `bits_per_pixel` and `bpp` (42_scanline.md R243). -/
def pixelWidths : List (Nat × Nat × Nat × Nat) := [
  (0, 1, 1, 1), (0, 2, 2, 1), (0, 4, 4, 1), (0, 8, 8, 1), (0, 16, 16, 2), (2, 8, 24, 3), (2, 16, 48, 6), (3, 1, 1, 1), (3, 2, 2, 1),
  (3, 4, 4, 1), (3, 8, 8, 1), (4, 8, 16, 2), (4, 16, 32, 4), (6, 8, 32, 4), (6, 16, 64, 8)]

/-- Width, height, the dimensions of the seven passes and `need` for gray 8-bit (43_deinterlace.md R286). -/
def smallImages : List (Nat × Nat × List (Nat × Nat) × Nat) := [
  (1, 1, [(1, 1), (0, 1), (1, 0), (0, 1), (1, 0), (0, 1), (1, 0)], 2),
  (2, 2, [(1, 1), (0, 1), (1, 0), (0, 1), (1, 0), (1, 1), (2, 1)], 7),
  (3, 3, [(1, 1), (0, 1), (1, 0), (1, 1), (2, 1), (1, 2), (3, 1)], 15),
  (4, 1, [(1, 1), (0, 1), (1, 0), (1, 1), (2, 0), (2, 1), (4, 0)], 7),
  (5, 5, [(1, 1), (1, 1), (2, 1), (1, 2), (3, 1), (2, 3), (5, 2)], 36),
  (8, 8, [(1, 1), (1, 1), (2, 1), (2, 2), (4, 2), (4, 4), (8, 4)], 79),
  (9, 3, [(2, 1), (1, 1), (3, 0), (2, 1), (5, 1), (4, 2), (9, 1)], 34)]

/-- A legal transparency mode with its counts (42_scanline.md R242, 40_commands.md R148). -/
abbrev State.TransparencyOk (s : State) : Prop :=
  (s.trMode = 0 ∨ (s.trMode = 1 ∧ s.colorType = 3) ∨ (s.trMode = 2 ∧ s.colorType = 0) ∨ (s.trMode = 3 ∧ s.colorType = 2)) ∧
  (s.colorType = 3 → s.regs.palN.toNat ≤ 256) ∧ (s.trMode = 1 → s.trN ≤ 256)

/-- The forward filter (42_scanline.md R261): byte `i` of the line `o` less its prediction, `p` the previous line. CORE does not
have it. -/
def filterForward (ft : Filter) (bpp : Nat) (o p : List Byte) : List Byte :=
  (List.range o.length).map fun i =>
    o.getD i 0 - BitVec.ofNat 8 (predictor ft
      (if bpp ≤ i then (o.getD (i - bpp) 0).toNat else 0) (p.getD i 0).toNat
      (if bpp ≤ i then (p.getD (i - bpp) 0).toNat else 0))

/-- Byte `k` of `TILE` belongs to none of the line's first `n` pixels. -/
abbrev State.OutsideLine (s : State) (n k : Nat) : Prop := ∀ col, col < n → k < s.lineIndex col ∨ s.lineIndex col + 4 ≤ k

/-- Byte `k` of `CANVAS` belongs to no pixel of the frame's rectangle. -/
abbrev State.OutsideRect (s : State) (k : Nat) : Prop :=
  ∀ i j, i < s.regs.fW.toNat → j < s.regs.fH.toNat → k < s.canvasIndex i j ∨ s.canvasIndex i j + 4 ≤ k

/-- The elements of the compressed stream: the instructions of unit U1. -/
def isStreamElement (i : Instr) : Bool :=
  match encode i with
  | some (.hdr, _) => true
  | some (.body, _) => true
  | some (.counts, _) => true
  | some (.metaLength, _) => true
  | some (.codeLengths, _) => true
  | some (.cl, _) => true
  | some (.ll, _) => true
  | some (.d, _) => true
  | _ => false

/-! ### What the hash arithmetic is compared with: the rules of 45_dct_hash.md over the rational numbers -/

/-- The header of a hash (30_encoding.md R115). -/
def headerOf (bytes : List Byte) : HashHeader :=
  hashHeader ((bytes.getD 0 0).toNat + 256 * (bytes.getD 1 0).toNat + 65536 * (bytes.getD 2 0).toNat)
    ((bytes.getD 3 0).toNat + 256 * (bytes.getD 4 0).toNat)

/-- The mean of a value over the pixels: `F(0, 0)` of a channel (45_dct_hash.md R328). -/
def meanOf (px : List Pixel) (value : Pixel → Rat) : Rat := (px.map value).sum / px.length

/-- The alpha-weighted average of a colour, 0 for a fully transparent image (45_dct_hash.md R322). -/
def averageColour (px : List Pixel) (sel : Pixel → Byte) : Rat :=
  if (px.map (fun p => p.a.toNat)).sum = 0 then 0
  else ((px.map (fun p => (sel p).toNat * p.a.toNat)).sum : Nat) / (255 * ((px.map (fun p => p.a.toNat)).sum : Nat))

/-- A colour of a pixel composited over the average colour (45_dct_hash.md R325). -/
def composited (px : List Pixel) (sel : Pixel → Byte) (p : Pixel) : Rat :=
  averageColour px sel * (1 - (p.a.toNat : Rat) / 255) + (p.a.toNat : Rat) / 255 * ((sel p).toNat / 255)

/-! ### What instructions leave alone -/

/-- Everything but the registers `IPOS`, `RAW_LEN`, `RAW_CAP`, `ERR`, the phase, the flag `RAW_VALID`, the buffer `RAW`, the state of U1
and whether `IPOS` has a specified value is unchanged: the most a stream element changes. -/
abbrev State.InflateFrame (s t : State) : Prop :=
  t.params = s.params ∧
  t.regs = { s.regs with ipos := t.regs.ipos, rawLen := t.regs.rawLen, rawCap := t.regs.rawCap, err := t.regs.err } ∧
  t.valid = { s.valid with raw := t.valid.raw } ∧
  t.buf = { s.buf with raw := t.buf.raw } ∧
  t.u2 = s.u2 ∧ t.script = s.script ∧ t.hostLog = s.hostLog ∧ t.freeCtr = s.freeCtr ∧ t.epoch = s.epoch ∧ t.pristine = s.pristine ∧
  t.fills = s.fills

/-- Everything but the registers `TILE_W`, `TILE_H`, `ERR`, the phase, the flag `TILE_VALID`, the buffer `TILE` and the state of U2
is unchanged: the most a scanline changes. -/
abbrev State.ReconFrame (s t : State) : Prop :=
  t.params = s.params ∧
  t.regs = { s.regs with tileW := t.regs.tileW, tileH := t.regs.tileH, err := t.regs.err } ∧
  t.valid = { s.valid with tile := t.valid.tile } ∧
  t.buf = { s.buf with tile := t.buf.tile } ∧
  t.u1 = s.u1 ∧ t.script = s.script ∧ t.hostLog = s.hostLog ∧ t.freeCtr = s.freeCtr ∧ t.epoch = s.epoch ∧ t.pristine = s.pristine ∧
  t.fills = s.fills ∧ t.iposKnown = s.iposKnown

/-- Everything but the registers `OUT_LEN`, `OUT_W`, `OUT_H`, `FRAME_CNT`, the phase, the flags `CANVAS_VALID`, `OUT_VALID`,
`SAVE_VALID`, the buffers `CANVAS`, `OUT` and the counter of free values is unchanged: the most a blend or dispose mode changes. -/
abbrev State.ComposeFrame (s t : State) : Prop :=
  t.params = s.params ∧
  t.regs = { s.regs with outLen := t.regs.outLen, outW := t.regs.outW, outH := t.regs.outH, frameCnt := t.regs.frameCnt } ∧
  t.valid = { s.valid with canvas := t.valid.canvas, out := t.valid.out, save := t.valid.save } ∧
  t.buf = { s.buf with canvas := t.buf.canvas, out := t.buf.out } ∧
  t.u1 = s.u1 ∧ t.u2 = s.u2 ∧ t.script = s.script ∧ t.hostLog = s.hostLog ∧ t.epoch = s.epoch ∧ t.pristine = s.pristine ∧
  t.fills = s.fills ∧ t.iposKnown = s.iposKnown

/-- What only the host changes: the `RW` registers, `IN`, `PAL`, `TRNS` (10_state.md section 3, R33, R38), what the host has read,
the count of resets and the parameters. -/
abbrev State.HostFrame (s t : State) : Prop :=
  t.params = s.params ∧ t.hostLog = s.hostLog ∧ t.epoch = s.epoch ∧
  t.buf.inp = s.buf.inp ∧ t.buf.pal = s.buf.pal ∧ t.buf.trns = s.buf.trns ∧
  t.regs.inLen = s.regs.inLen ∧ t.regs.inOff = s.regs.inOff ∧ t.regs.imgW = s.regs.imgW ∧ t.regs.imgH = s.regs.imgH ∧
  t.regs.fmt = s.regs.fmt ∧ t.regs.palN = s.regs.palN ∧ t.regs.trCtl = s.regs.trCtl ∧ t.regs.key0 = s.regs.key0 ∧
  t.regs.key1 = s.regs.key1 ∧ t.regs.key2 = s.regs.key2 ∧ t.regs.fX = s.regs.fX ∧ t.regs.fY = s.regs.fY ∧
  t.regs.fW = s.regs.fW ∧ t.regs.fH = s.regs.fH ∧ t.regs.fCtl = s.regs.fCtl ∧ t.regs.hW = s.regs.hW ∧ t.regs.hH = s.regs.hH

end Sys2Proof.Machine
end

