-- ==== Sys2Proof/WellFormed.lean ====
section
/-! DEFINITION. Which instructions are well formed: the operands that a row of the opcode table admits. -/

namespace Sys2Proof

/-- A payload whose length fits the register `IN_LEN` (10_state.md R21, R24). -/
def payloadOk (p : List Byte) : Bool := p.length < 2 ^ 32

/-- The whole-image arguments fit `PAL` (256 entries) and `TRNS` (256 bytes) (10_state.md R27, R28, R33). -/
def ImageArgs.ok (a : ImageArgs) : Bool := a.palette.length ≤ 256 && a.trns.length ≤ 256

/-- The operand ranges the opcode table gives each row: a reserved opcode, symbol, filter type or mode is one of the values its
row lists, and a pseudo-command's arguments fit the registers and buffers it writes. Every other row admits every value of its
fields, whose widths the constructors' types give. -/
def Instr.wf : Instr → Bool
  | .cmdReserved6To7 op => op.toNat == 6 || op.toNat == 7
  | .cmdReserved12To15 op => 12 ≤ op.toNat
  | .frame a => payloadOk a.payload
  | .decodeStill a => payloadOk a.payload && a.image.ok
  | .decodeAnim a => a.frames.all (fun f => payloadOk f.payload) && a.image.ok
  | .llIllegal286To287 s => s.toNat == 286 || s.toNat == 287
  | .dIllegal30To31 d => 30 ≤ d.toNat
  | .filterIllegal ft => 5 ≤ ft.toNat
  | .blendReserved2To3 b => 2 ≤ b.toNat
  | _ => true

end Sys2Proof
end

