-- ==== Sys2Proof/Certificates/Slice0/Obligations.lean ====
section
/-! DEFINITION. The statements for the provers, in the order of OBLIGATIONS.json. Each docstring names the rules of spec/ it rests on. -/

open Sys2Proof Sys2Proof.Machine

/-! ### Encoding -/

/-- Decoding an encoded well-formed instruction gives it back, with every operand; the three pseudo-commands alone have no
encoding (30_encoding.md R100, R102, R104, R105, R107, R113, R121). -/
def Obligations.DecodeOfEncode : Prop :=
  ∀ i : Instr, i.wf = true →
    (∀ f w, encode i = some (f, w) → decode f w = .ok i) ∧
    (encode i = none → (∃ a, i = .frame a) ∨ (∃ a, i = .decodeStill a) ∨ ∃ a, i = .decodeAnim a)

/-- In the formats whose values have one meaning each, encoding what was decoded gives the value back; in every format what is
decoded is well formed and belongs to that format (30_encoding.md R102, R104, R105, R107, R113). -/
def Obligations.EncodeOfDecode : Prop :=
  ∀ (f : Format) (w : Nat) (i : Instr), decode f w = .ok i →
    i.wf = true ∧ (∃ v, encode i = some (f, v)) ∧
    (f ∈ [Format.hdr, .counts, .metaLength, .codeLengths, .cl, .ll, .d, .filter] → encode i = some (f, w))

/-- A command word is decoded by its bits [3:0] alone, to the table of 30_encoding.md R100. -/
def Obligations.CommandWordIsLowFourBits : Prop :=
  (∀ v : Word, decode .cmd v.toNat = decode .cmd (v.toNat % 16)) ∧
  decode .cmd 0 = .ok .nop ∧ decode .cmd 1 = .ok .clear ∧ decode .cmd 2 = .ok .inflate ∧ decode .cmd 3 = .ok .recon ∧
  decode .cmd 4 = .ok .canvasInit ∧ decode .cmd 5 = .ok .compose ∧ decode .cmd 6 = .ok (.cmdReserved6To7 6) ∧
  decode .cmd 7 = .ok (.cmdReserved6To7 7) ∧ decode .cmd 8 = .ok .hashEnc ∧ decode .cmd 9 = .ok .hashDec ∧
  decode .cmd 10 = .ok .hashAvg ∧ decode .cmd 11 = .ok .hashAspect ∧
  (∀ op : BitVec 4, 12 ≤ op.toNat → decode .cmd op.toNat = .ok (.cmdReserved12To15 op))

/-- Values of each of the twelve formats, two of the symbol format's, read as the instruction the spec's table gives them
(30_encoding.md R100, R102, R104, R105, R107, R113; 10_state.md R31). -/
def Obligations.DecodeWords : Prop :=
  decode .cmd 0xFFFFFFF0 = .ok .nop ∧
  decode .hdr 0b101 = .ok (.hdr 1 2) ∧
  decode .body 0b010 = .ok .fixed ∧
  decode .counts 0b01110000000010 = .ok (.dynCounts 2 0 7) ∧
  decode .metaLength 0b010 = .ok (.dynMetaLengths 2) ∧
  decode .codeLengths 0 = .ok .dynCodeLengths ∧
  decode .cl 18 = .ok .cl18 ∧
  decode .ll 0x61 = .ok (.lit 0x61) ∧
  decode .ll 284 = .ok .len284 ∧
  decode .d 29 = .ok .dist29 ∧
  decode .filter 4 = .ok .filterPaeth ∧
  decode .blend 0x12 = .ok .blendOver ∧
  decode .dispose 0x12 = .ok .disposeRestorePrevious

/-! ### The step -/

/-- A step of the running unit is one stream element: it executes the instruction that what is fetched decodes to, in the state after
its own bits, and goes on with the rest of the element (the parts of a dynamic header, the distance of a length symbol, the body of a
fixed or illegal block) until nothing of it is left; a part that raises while it is read leaves the state after fault entry. A host
action that writes `CMD` executes the command, and a pseudo-command of the host executes that; with nothing to do the machine stays
(10_state.md R40, R46; 30_encoding.md R119, 40_commands.md R140, 41_inflate.md R179; log entries 1 to 4). -/
def Obligations.StepRunsInstruction : Prop :=
  (∀ (s s' t : State) (a : Await) (f : Format) (w : Nat) (i : Instr), s.Undisturbed → s.phase = .busy a →
    s.fetch a = .ok (f, w) s' → decode f w = .ok i → exec i s' = .next t → t.rest? = none → step s = exec i s') ∧
  (∀ (s s' : State) (a : Await), s.Undisturbed → s.phase = .busy a → s.fetch a = .raised s' → step s = .next s') ∧
  (∀ (s : State) (a : Await), s.Undisturbed → s.phase = .busy a → step s = s.element a 31) ∧
  (∀ (s s' : State) (a : Await) (f : Format) (w : Nat) (i : Instr),
    s.fetch a = .ok (f, w) s' → decode f w = .ok i → s.piece a = exec i s') ∧
  (∀ (s s' : State) (a : Await), s.fetch a = .raised s' → s.piece a = .next s' ∧ s'.phase = .fault ∧ s'.rest? = none) ∧
  (∀ (s t : State) (a b : Await) (n : Nat), s.piece a = .next t → t.rest? = some b → s.element a (n + 1) = t.element b n) ∧
  (∀ (s t : State) (a : Await) (n : Nat), s.piece a = .next t → t.rest? = none → s.element a n = .next t) ∧
  (∀ (s : State) (b : Await), s.rest? = some b ↔ s.phase = .busy b ∧
    (b = .counts ∨ b = .metaLength ∨ b = .codeLengths ∨ b = .dSymbol ∨ (b = .body ∧ (s.u1.btype = 1 ∨ s.u1.btype = 3)))) ∧
  (∀ (s : State) (item : HostItem) (rest : List HostItem),
    s.script = item :: rest → (item.early = true ∨ s.phase.isBusy = false) →
    (∀ v i, item.op = .writeReg 0 v → decode .cmd v.toNat = .ok i → step s = exec i { s with script := rest }) ∧
    (∀ a, item.op = .frame a → step s = exec (.frame a) { s with script := rest }) ∧
    (∀ a, item.op = .decodeStill a → step s = exec (.decodeStill a) { s with script := rest }) ∧
    (∀ a, item.op = .decodeAnim a → step s = exec (.decodeAnim a) { s with script := rest })) ∧
  (∀ s : State, s.script = [] → s.phase.isBusy = false → step s = .next s)

/-! ### Reset -/

/-- After reset every register reads 0 but `RAW_CAP`, which reads `RAW_INIT_CAP`; `PHASE` is IDLE, the six flags are 0, no buffer
byte has a value; and a reset that the host asserts at any time, in any phase, leaves that state (10_state.md R46,
70_reset_and_hazards.md R410; the values of table RAMs and transient state are the model's, log entry 10, and are not stated). -/
def Obligations.ResetState : Prop :=
  (∀ p : Params, p.Ok →
    (∀ n, (State.resetWith p).regAt n = if n = 0x07 then BitVec.ofNat 32 p.rawInitCap else 0) ∧
    ((State.resetWith p).regAt 0x07).toNat = p.rawInitCap ∧
    (State.resetWith p).phase = .idle ∧ (State.resetWith p).valid = ValidFlags.none ∧
    (∀ b, (State.resetWith p).buf.get b = [])) ∧
  (∀ (s : State) (item : HostItem) (rest : List HostItem),
    s.script = item :: rest → (item.early = true ∨ s.phase.isBusy = false) → item.op = .reset →
    ∃ t, step s = .next t ∧ t.params = s.params ∧ t.regs = Regs.reset s.params ∧ t.phase = .idle ∧
      t.valid = ValidFlags.none ∧ (∀ b, t.buf.get b = []) ∧ t.script = rest)

/-! ### The sequencer -/

/-- A `CMD` write while BUSY is ignored; in FAULT only CLEAR has an effect; in IDLE and DONE the command of bits [3:0] is started;
`CMD` reads 0 (10_state.md R22). -/
def Obligations.CommandWriteByPhase : Prop :=
  (∀ (s : State) (v : Word) (a : Await), s.phase = .busy a → s.hostWriteReg 0 v = .next s) ∧
  (∀ (s : State) (v : Word), s.phase = .fault →
    s.hostWriteReg 0 v = .next (if v.toNat % 16 = 1 then s.clear else s)) ∧
  (∀ (s : State) (v : Word), s.Ready → s.hostWriteReg 0 v = exec (decodeCmd (v.toNat % 16)) s) ∧
  (∀ s : State, s.phase.isBusy = false → (s.hostReadReg 0).1 = 0)

/-- Whatever a step does, it leaves `PHASE = FAULT` only by a CLEAR or a reset of the host (60_exceptions.md R391, R392). -/
def Obligations.FaultIsLeftOnlyByClearOrReset : Prop :=
  ∀ s t : State, s.phase = .fault → step s = .next t → t.phase ≠ .fault →
    ∃ item rest, s.script = item :: rest ∧
      (item.op = .reset ∨ ∃ v : Word, item.op = .writeReg 0 v ∧ v.toNat % 16 = 1)

/-- The value of `ERR` for a fault, with the spec's examples (60_exceptions.md R389). -/
def Obligations.FaultErrValue : Prop :=
  (∀ (f : FaultCode) (u : UnitId), (errWord f u).toNat = f.cls + 256 * f.cause + 65536 * u.code) ∧
  errWord .noCode .inflate = 0x00010203 ∧ errWord .badPairing .scanline = 0x00020102 ∧ errWord .hashDim .dct = 0x00050104 ∧
  errWord .badOpcode .sequencer = 0x00000107 ∧ errWord .frameRectRange .compositor = 0x00040407 ∧
  errWord .rawOverflow .inflate = 0x00010108

/-- NOP in IDLE and DONE changes nothing but `PHASE`, which becomes DONE; in FAULT it is ignored; after reset it leaves
`STATUS = 2` (40_commands.md R145). -/
def Obligations.NopCompletes : Prop :=
  (∀ s : State, s.Ready → exec .nop s = .next { s with phase := .done }) ∧
  (∀ s : State, s.phase = .fault → exec .nop s = .next s) ∧
  (∃ t, exec .nop State.reset = .next t ∧ t.statusWord = 0x00000002)

/-- CLEAR, accepted in IDLE, DONE and FAULT: `PHASE` IDLE, `ERR` 0, all six flags 0; no other register, no buffer byte, nothing
else of the machine changes (40_commands.md R146; `pristine` is the model's note that result registers are now unspecified, log
entry 9). -/
def Obligations.ClearCompletes : Prop :=
  ∀ s : State, s.phase.isBusy = false →
    exec .clear s = .next { s with
      phase := .idle, regs := { s.regs with err := 0 }, pristine := false,
      valid := { raw := false, tile := false, canvas := false, save := false, out := false, res := false } }

/-- The ten opcodes select their commands, the six others raise BadCommand(BAD_OPCODE) with unit 0 and change nothing else, and
bits [31:4] take no part (40_commands.md R141). -/
def Obligations.OpcodeDecode : Prop :=
  (∀ (s : State) (v u : Word), v.toNat % 16 = u.toNat % 16 → s.hostWriteReg 0 v = s.hostWriteReg 0 u) ∧
  (∀ s : State, s.hostWriteReg 0 0 = exec .nop s ∧ s.hostWriteReg 0 1 = exec .clear s ∧ s.hostWriteReg 0 2 = exec .inflate s ∧
    s.hostWriteReg 0 3 = exec .recon s ∧ s.hostWriteReg 0 4 = exec .canvasInit s ∧ s.hostWriteReg 0 5 = exec .compose s ∧
    s.hostWriteReg 0 8 = exec .hashEnc s ∧ s.hostWriteReg 0 9 = exec .hashDec s ∧ s.hostWriteReg 0 10 = exec .hashAvg s ∧
    s.hostWriteReg 0 11 = exec .hashAspect s) ∧
  (∀ (s : State) (v : Word), s.Ready → v.toNat % 16 ∈ [6, 7, 12, 13, 14, 15] →
    s.hostWriteReg 0 v = .next { s with regs := { s.regs with err := 0x00000107 }, phase := .fault }) ∧
  (∀ (s : State) (op : BitVec 4), s.Ready →
    exec (.cmdReserved6To7 op) s = .next { s with regs := { s.regs with err := 0x00000107 }, phase := .fault } ∧
    exec (.cmdReserved12To15 op) s = .next { s with regs := { s.regs with err := 0x00000107 }, phase := .fault })

/-- The registers and buffers as the host sees them: which register each number names, and the bits of `STATUS`. While not BUSY a host
write of an `RW` register stores the value whole and changes nothing else, a host write of an `RO` register or a reserved number changes
nothing, a host buffer write stores its bytes and nothing else; while BUSY every host write is ignored. A host read returns the register
or byte where it has a specified value, and otherwise, and of everything but `STATUS` while BUSY, a free value; outside BUSY a buffer
read changes nothing and a byte without a specified value is a free value of the number of resets, of the commands that have begun to
fill its buffer since, and of its place, so that a location is idempotent to read (20_memory.md R80, log entry 28); the read of `OUT[0
.. OUT_LEN)` reads `OUT_LEN` and then so many bytes of `OUT` (10_state.md R21, R23, R35, R36, R38; 20_memory.md R70, R82; 40_commands.md
R155; 70_reset_and_hazards.md R420; free values: log entry 8; result registers before the first command: log entry 9; the stop beyond a
capacity: log entry 15; `IPOS`: log entry 19). -/
def Obligations.HostRegisterAccess : Prop :=
  (∀ s : State,
    s.statusWord.toNat % 4 = (match s.phase with | .idle => 0 | .busy _ => 1 | .done => 2 | .fault => 3) ∧
    ∀ k, 2 ≤ k → s.statusWord.getLsbD k =
      if k = 4 then s.valid.raw else if k = 5 then s.valid.tile else if k = 6 then s.valid.canvas
      else if k = 7 then s.valid.save else if k = 8 then s.valid.out else if k = 9 then s.valid.res else false) ∧
  (∀ s : State, (List.range 0x23).map s.regAt = [
    0, s.statusWord, s.regs.err, s.regs.inLen, s.regs.inOff, s.regs.ipos, s.regs.rawLen, s.regs.rawCap, s.regs.imgW, s.regs.imgH,
    s.regs.fmt, s.regs.palN, s.regs.trCtl, s.regs.key0, s.regs.key1, s.regs.key2, s.regs.fX, s.regs.fY, s.regs.fW, s.regs.fH,
    s.regs.fCtl, s.regs.hW, s.regs.hH, s.regs.outLen, s.regs.outW, s.regs.outH, s.regs.res0, s.regs.res1, s.regs.res2, s.regs.res3,
    s.regs.frameCnt, s.regs.tileW, s.regs.tileH, s.regs.canvasW, s.regs.canvasH]) ∧
  (∀ (s : State) (n : Nat) (v : Word), s.phase.isBusy = false →
    n ∈ [0x03, 0x04, 0x08, 0x09, 0x0A, 0x0B, 0x0C, 0x0D, 0x0E, 0x0F, 0x10, 0x11, 0x12, 0x13, 0x14, 0x15, 0x16] →
    (s.doWriteReg n v).regAt n = v ∧ (∀ m, m ≠ n → (s.doWriteReg n v).regAt m = s.regAt m) ∧
    s.doWriteReg n v = { s with regs := (s.doWriteReg n v).regs }) ∧
  (∀ (s : State) (n : Nat) (v : Word),
    n ∉ [0x03, 0x04, 0x08, 0x09, 0x0A, 0x0B, 0x0C, 0x0D, 0x0E, 0x0F, 0x10, 0x11, 0x12, 0x13, 0x14, 0x15, 0x16] →
    s.doWriteReg n v = s) ∧
  (∀ (s : State) (n : Nat), 0x23 ≤ n → s.regAt n = 0) ∧
  (∀ (s : State) (n : Nat) (v : Word), s.phase.isBusy = true → s.doWriteReg n v = s) ∧
  (∀ (s : State) (n : Nat) (v : Word), n ≠ 0 → s.hostWriteReg n v = .next (s.doWriteReg n v)) ∧
  (∀ (s : State) (b : HostWBuf) (i : Nat) (bytes : List Byte), s.phase.isBusy = true → s.doWriteBuf b i bytes = .next s) ∧
  (∀ (s : State) (b : HostWBuf) (i : Nat) (bytes : List Byte), s.phase.isBusy = false →
    (s.params.capacity b.buf < i + bytes.length → s.doWriteBuf b i bytes = .fault .noSuchByte) ∧
    (i + bytes.length ≤ s.params.capacity b.buf → ∃ t, s.doWriteBuf b i bytes = .next t ∧ t = { s with buf := t.buf } ∧
      (∀ c, c ≠ b.buf → t.buf.get c = s.buf.get c) ∧
      (∀ k, k < bytes.length → t.byteAt b.buf (i + k) = bytes.getD k 0) ∧
      (∀ k, k < i ∨ i + bytes.length ≤ k → t.byteAt b.buf k = s.byteAt b.buf k))) ∧
  (∀ s : State, s.hostReadReg 0x01 = (s.statusWord, s)) ∧
  (∀ (s : State) (n : Nat), s.phase.isBusy = true → n ≠ 0x01 →
    s.hostReadReg n = (Config.freeWord s.freeCtr, { s with freeCtr := s.freeCtr + 1 })) ∧
  (∀ (s : State) (n : Nat), s.phase.isBusy = false →
    n ∉ [0x05, 0x06, 0x07, 0x17, 0x18, 0x19, 0x1A, 0x1B, 0x1C, 0x1D, 0x1E, 0x1F, 0x20, 0x21, 0x22] →
    s.hostReadReg n = (s.regAt n, s)) ∧
  (∀ (s : State) (n : Nat) (specified : Bool), s.phase.isBusy = false →
    ((n = 0x05 ∧ specified = s.iposKnown) ∨ (n ∈ [0x06, 0x07] ∧ specified = (s.pristine || s.valid.raw)) ∨
      (n ∈ [0x17, 0x18, 0x19] ∧ specified = (s.pristine || s.valid.out)) ∨
      (n ∈ [0x1A, 0x1B, 0x1C, 0x1D] ∧ specified = (s.pristine || s.valid.res)) ∨
      (n ∈ [0x1F, 0x20] ∧ specified = (s.pristine || s.valid.tile)) ∨
      (n ∈ [0x1E, 0x21, 0x22] ∧ specified = (s.pristine || s.valid.canvas))) →
    s.hostReadReg n =
      if specified then (s.regAt n, s) else (Config.freeWord s.freeCtr, { s with freeCtr := s.freeCtr + 1 })) ∧
  (∀ (s : State) (b : HostRBuf) (i n : Nat),
    (s.hostReadBytes b i n).1.length = n ∧
    (s.phase.isBusy = true → (s.hostReadBytes b i n).2 = { s with freeCtr := s.freeCtr + n } ∧
      ∀ k, k < n → (s.hostReadBytes b i n).1.getD k 0 = (Config.freeWord (s.freeCtr + k)).setWidth 8) ∧
    (s.phase.isBusy = false → (s.hostReadBytes b i n).2 = s ∧ ∀ k, k < n → (s.hostReadBytes b i n).1.getD k 0 =
      if (b = .inp ∨ b = .pal ∨ b = .trns ∨ (b = .raw ∧ s.valid.raw = true ∧ i + k < s.regs.rawLen.toNat) ∨
          (b = .tile ∧ s.valid.tile = true ∧ i + k < 4 * s.regs.tileW.toNat * s.regs.tileH.toNat) ∨
          (b = .canvas ∧ s.valid.canvas = true ∧ i + k < 4 * s.regs.canvasW.toNat * s.regs.canvasH.toNat) ∨
          (b = .out ∧ s.valid.out = true ∧ i + k < s.regs.outLen.toNat))
      then s.byteAt b.buf (i + k)
      else Config.unspecifiedByte s.epoch
        (match b with | .raw => s.fills.raw | .tile => s.fills.tile | .canvas => s.fills.canvas | .out => s.fills.out | _ => 0)
        b.buf (i + k))) ∧
  (∀ (s : State) (item : HostItem) (rest : List HostItem),
    s.script = item :: rest → (item.early = true ∨ s.phase.isBusy = false) → ∀ q : State, q = { s with script := rest } →
    (∀ n v, item.op = .writeReg n v → n ≠ 0 → step s = .next (q.doWriteReg n v)) ∧
    (∀ b i bytes, item.op = .writeBuf b i bytes → step s = q.doWriteBuf b i bytes) ∧
    (∀ n, item.op = .readReg n → step s = .next { (q.hostReadReg n).2 with
      hostLog := s.hostLog ++ [.reg n (q.hostReadReg n).1] }) ∧
    (∀ b i n, item.op = .readBuf b i n →
      (s.phase.isBusy = true ∨ i + n ≤ s.params.capacity b.buf → step s = .next { (q.hostReadBytes b i n).2 with
        hostLog := s.hostLog ++ [.bytes b i (q.hostReadBytes b i n).1] }) ∧
      (s.phase.isBusy = false → s.params.capacity b.buf < i + n → step s = .fault .noSuchByte)) ∧
    (item.op = .readOut → ∀ (n : Nat) (r : State), n = (q.hostReadReg 0x17).1.toNat → r = (q.hostReadReg 0x17).2 →
      (s.phase.isBusy = true ∨ n ≤ s.params.pixMax → step s = .next { (r.hostReadBytes .out 0 n).2 with
        hostLog := s.hostLog ++ [.bytes .out 0 (r.hostReadBytes .out 0 n).1] }) ∧
      (s.phase.isBusy = false → s.params.pixMax < n → step s = .fault .noSuchByte)))

/-! ### U1: the command and the block structure -/

/-- INFLATE, admitted: `IPOS = 8*IN_OFF`, `RAW_LEN = 0`, `RAW_CAP = RAW_INIT_CAP`, `RAW_VALID` cleared, a header is decoded next;
nothing else changes (that `IPOS` is from now on unspecified to the host until INFLATE completes is noted in `iposKnown`, log entry 19).
Refused: PARAM_RANGE of unit 1 (40_commands.md R140, R142, R143, R147). That the buffer's unspecified bytes are so from now on anew is
noted in `fills` (log entry 28). -/
def Obligations.InflateStarts : Prop :=
  (∀ s : State, s.Ready → s.regs.inOff.toNat ≤ s.regs.inLen.toNat → s.regs.inLen.toNat ≤ s.params.inMax →
    exec .inflate s = .next { s with
      regs := { s.regs with
        ipos := BitVec.ofNat 32 (8 * s.regs.inOff.toNat), rawLen := 0, rawCap := BitVec.ofNat 32 s.params.rawInitCap },
      valid := { s.valid with raw := false }, phase := .busy .header, pristine := false, iposKnown := false,
      fills := { s.fills with raw := s.fills.raw + 1 } }) ∧
  (∀ s : State, s.Ready → ¬(s.regs.inOff.toNat ≤ s.regs.inLen.toNat ∧ s.regs.inLen.toNat ≤ s.params.inMax) →
    exec .inflate s = .next { s with regs := { s.regs with err := 0x00010307 }, phase := .fault })

/-- The block header: three bits, `BFINAL` first, then `BTYPE`, are latched and the body is next; with fewer than three bits left
the step raises INPUT_EXHAUSTED, `BFINAL` having been latched if there was one bit (41_inflate.md R180). `piece` is the part of a step
that reads one row of the opcode table; it is the whole step before a stored or dynamic body. -/
def Obligations.HeaderStep : Prop :=
  (∀ (b : BitVec 1) (t : BitVec 2) (s : State),
    exec (.hdr b t) s = .next { s with u1 := { s.u1 with bfinal := b, btype := t }, phase := .busy .body }) ∧
  (∀ s : State, s.StreamOk → s.BitsLeft 3 →
    s.piece .header = .next s.afterHeader ∧
    (s.script = [] → s.phase = .busy .header → s.streamField (s.regs.ipos.toNat + 1) 2 ∈ [0, 2] → step s = .next s.afterHeader)) ∧
  (∀ s : State, s.StreamOk → ¬ s.BitsLeft 3 →
    ∃ t, s.piece .header = .next t ∧ (s.script = [] → s.phase = .busy .header → step s = .next t) ∧
      t.phase = .fault ∧ t.regs.err = 0x00010603 ∧ t.buf = s.buf ∧
      t.u1 = if s.BitsLeft 1 then { s.u1 with bfinal := BitVec.ofNat 1 (s.streamBit s.regs.ipos.toNat) } else s.u1)

/-- A fixed block loads the two fixed length lists, whose Kraft sums are exactly 1 and whose codes are those of the table of
30_encoding.md R110, and its symbols follow; a dynamic block goes on with its counts; the code-length sequence starts empty. The body
of a fixed block and the fault of an illegal block type, which consume no bit, belong to the step of their header (41_inflate.md R184,
R185, R186, R188; that they do is log entry 3). -/
def Obligations.BlockBodiesStart : Prop :=
  (∀ s : State, exec .fixed s = .next { s with
    u1 := { s.u1 with
      llLen := List.replicate 144 8 ++ List.replicate 112 9 ++ List.replicate 24 7 ++ List.replicate 8 8,
      dLen := List.replicate 32 5 },
    phase := .busy .llSymbol }) ∧
  (∀ s : State, s.script = [] → s.phase = .busy .header → s.StreamOk → s.BitsLeft 3 →
    (s.streamField (s.regs.ipos.toNat + 1) 2 = 1 → step s = exec .fixed s.afterHeader) ∧
    (s.streamField (s.regs.ipos.toNat + 1) 2 = 3 → step s = exec .btypeIllegal s.afterHeader)) ∧
  (∀ s : State, exec .dyn s = .next { s with phase := .busy .counts }) ∧
  (∀ s : State, exec .dynCodeLengths s = .next { s with u1 := { s.u1 with seq := [] }, phase := .busy .clSymbol }) ∧
  kraft (fixedLl.map BitVec.toNat) = 2 ^ 15 ∧ kraft (fixedD.map BitVec.toNat) = 2 ^ 15 ∧
  (∀ k, k < 24 → codeOf (fixedLl.map BitVec.toNat) (256 + k) = k) ∧
  (∀ k, k < 144 → codeOf (fixedLl.map BitVec.toNat) k = 0x30 + k) ∧
  (∀ k, k < 8 → codeOf (fixedLl.map BitVec.toNat) (280 + k) = 0xC0 + k) ∧
  (∀ k, k < 112 → codeOf (fixedLl.map BitVec.toNat) (144 + k) = 0x190 + k) ∧
  (∀ k, k < 32 → codeOf (fixedD.map BitVec.toNat) k = k)

/-- The counts of a dynamic block: `HLIT = getbits(5) + 257`, `HDIST = getbits(5) + 1`, `HCLEN = getbits(4) + 4`; every field value
is accepted; INPUT_EXHAUSTED with fewer than 14 bits left (41_inflate.md R186). `piece` is the part of a dynamic header's step that
reads the counts. -/
def Obligations.DynCountsStep : Prop :=
  (∀ (l d : BitVec 5) (c : BitVec 4) (s : State), exec (.dynCounts l d c) s = .next { s with
    u1 := { s.u1 with
      hlit := l.toNat + 257, hdist := d.toNat + 1, hclen := c.toNat + 4, metaIdx := 0, clLen := List.replicate 19 0 },
    phase := .busy .metaLength }) ∧
  (∀ s : State, s.StreamOk → s.BitsLeft 14 →
    ∃ t, s.piece .counts = .next t ∧ t.regs = { s.regs with ipos := BitVec.ofNat 32 (s.regs.ipos.toNat + 14) } ∧
      t.u1.hlit = s.streamField s.regs.ipos.toNat 5 + 257 ∧ t.u1.hdist = s.streamField (s.regs.ipos.toNat + 5) 5 + 1 ∧
      t.u1.hclen = s.streamField (s.regs.ipos.toNat + 10) 4 + 4 ∧ t.phase = .busy .metaLength ∧ t.buf = s.buf ∧
      t.valid = s.valid) ∧
  (∀ s : State, s.StreamOk → ¬ s.BitsLeft 14 →
    ∃ t, s.piece .counts = .next t ∧ t.phase = .fault ∧ t.regs.err = 0x00010603)

/-- A meta code length is stored at `CL_ORDER[i]`; after the last one the sequence of code lengths follows, unless the table is
oversubscribed (41_inflate.md R177, R187). -/
def Obligations.MetaLengthStored : Prop :=
  ∀ (v : BitVec 3) (s : State), s.u1.clLen.length = 19 → s.u1.metaIdx < s.u1.hclen → s.u1.hclen ≤ 19 →
    ∃ t, exec (.dynMetaLengths v) s = .next t ∧
      t.u1 = { s.u1 with clLen := t.u1.clLen, metaIdx := s.u1.metaIdx + 1 } ∧
      (∀ j, j < 19 → t.u1.clLen[j]? =
        if [16, 17, 18, 0, 8, 7, 9, 6, 10, 5, 11, 4, 12, 3, 13, 2, 14, 1, 15][s.u1.metaIdx]? = some j then some v
        else s.u1.clLen[j]?) ∧
      (s.u1.metaIdx + 1 < s.u1.hclen → t = { s with u1 := t.u1 }) ∧
      (s.u1.metaIdx + 1 = s.u1.hclen → kraft (t.u1.clLen.map BitVec.toNat) ≤ 2 ^ 15 →
        t = { s with u1 := t.u1, phase := .busy .codeLengths }) ∧
      (s.u1.metaIdx + 1 = s.u1.hclen → 2 ^ 15 < kraft (t.u1.clLen.map BitVec.toNat) →
        t = { s with u1 := t.u1, regs := { s.regs with err := 0x00010703 }, phase := .fault })

/-- A meta symbol 0 to 15 appends its length; when the sequence is full both tables are written from it, entries beyond the two
counts being 0, and the symbols of the block follow unless a table is oversubscribed (41_inflate.md R177, R188, R189). -/
def Obligations.CodeLengthAppended : Prop :=
  (∀ (c : BitVec 4) (s : State), s.u1.seq.length + 1 < s.u1.hlit + s.u1.hdist →
    exec (.cln c) s = .next { s with u1 := { s.u1 with seq := s.u1.seq ++ [c] } }) ∧
  (∀ (c : BitVec 4) (s : State), s.u1.seq.length + 1 = s.u1.hlit + s.u1.hdist → s.u1.hlit ≤ 288 → s.u1.hdist ≤ 32 →
    ∃ t, exec (.cln c) s = .next t ∧
      t.u1 = { s.u1 with seq := s.u1.seq ++ [c], llLen := t.u1.llLen, dLen := t.u1.dLen } ∧
      (∀ i, i < 288 → t.u1.llLen[i]? = some (if i < s.u1.hlit then t.u1.seq.getD i 0 else 0)) ∧
      (∀ j, j < 32 → t.u1.dLen[j]? = some (if j < s.u1.hdist then t.u1.seq.getD (s.u1.hlit + j) 0 else 0)) ∧
      (kraft (t.u1.llLen.map BitVec.toNat) ≤ 2 ^ 15 → kraft (t.u1.dLen.map BitVec.toNat) ≤ 2 ^ 15 →
        t = { s with u1 := t.u1, phase := .busy .llSymbol }) ∧
      (2 ^ 15 < kraft (t.u1.llLen.map BitVec.toNat) ∨ 2 ^ 15 < kraft (t.u1.dLen.map BitVec.toNat) →
        t = { s with u1 := t.u1, regs := { s.regs with err := 0x00010703 }, phase := .fault }))

/-- CL16: REPEAT_NO_PREV with no length yet, before any bit is read; else `3 + getbits(2)` copies of the last length, or
REPEAT_OVERRUN when they pass the sequence's end, or INPUT_EXHAUSTED; when the sequence is then exactly full both tables are written
from it (41_inflate.md R177, R188, R190; 10_state.md R39). -/
def Obligations.RepeatPrevious : Prop :=
  (∀ s : State, s.u1.seq = [] →
    exec .cl16 s = .next { s with regs := { s.regs with err := 0x00010803 }, phase := .fault }) ∧
  (∀ (s : State) (init : List (BitVec 4)) (prev : BitVec 4), s.u1.seq = init ++ [prev] → s.StreamOk →
    (s.BitsLeft 2 → s.u1.seq.length + (3 + s.streamField s.regs.ipos.toNat 2) < s.u1.hlit + s.u1.hdist →
      exec .cl16 s = .next { s.skip 2 with
        u1 := { s.u1 with seq := s.u1.seq ++ List.replicate (3 + s.streamField s.regs.ipos.toNat 2) prev } }) ∧
    (s.BitsLeft 2 → s.u1.seq.length + (3 + s.streamField s.regs.ipos.toNat 2) = s.u1.hlit + s.u1.hdist →
      s.u1.hlit ≤ 288 → s.u1.hdist ≤ 32 → ∃ t, exec .cl16 s = .next t ∧
        (s.skip 2).SequenceEnds (s.u1.seq ++ List.replicate (3 + s.streamField s.regs.ipos.toNat 2) prev) t) ∧
    (s.BitsLeft 2 → s.u1.hlit + s.u1.hdist < s.u1.seq.length + (3 + s.streamField s.regs.ipos.toNat 2) →
      exec .cl16 s = .next ((s.skip 2).raise .repeatOverrun .inflate)) ∧
    (¬ s.BitsLeft 2 → ∃ t, exec .cl16 s = .next t ∧ t.phase = .fault ∧ t.regs.err = 0x00010603))

/-- CL17 and CL18: `3 + getbits(3)` and `11 + getbits(7)` zeros, or REPEAT_OVERRUN, or INPUT_EXHAUSTED; when the sequence is then
exactly full both tables are written from it (41_inflate.md R177, R188, R191, R192; 10_state.md R39). -/
def Obligations.ZeroRuns : Prop :=
  ∀ (i : Instr) (bits base : Nat), (i, bits, base) ∈ [(Instr.cl17, 3, 3), (Instr.cl18, 7, 11)] → ∀ s : State, s.StreamOk →
    (s.BitsLeft bits → s.u1.seq.length + (base + s.streamField s.regs.ipos.toNat bits) < s.u1.hlit + s.u1.hdist →
      exec i s = .next { s.skip bits with
        u1 := { s.u1 with seq := s.u1.seq ++ List.replicate (base + s.streamField s.regs.ipos.toNat bits) 0 } }) ∧
    (s.BitsLeft bits → s.u1.seq.length + (base + s.streamField s.regs.ipos.toNat bits) = s.u1.hlit + s.u1.hdist →
      s.u1.hlit ≤ 288 → s.u1.hdist ≤ 32 → ∃ t, exec i s = .next t ∧
        (s.skip bits).SequenceEnds (s.u1.seq ++ List.replicate (base + s.streamField s.regs.ipos.toNat bits) 0) t) ∧
    (s.BitsLeft bits → s.u1.hlit + s.u1.hdist < s.u1.seq.length + (base + s.streamField s.regs.ipos.toNat bits) →
      exec i s = .next ((s.skip bits).raise .repeatOverrun .inflate)) ∧
    (¬ s.BitsLeft bits → ∃ t, exec i s = .next t ∧ t.phase = .fault ∧ t.regs.err = 0x00010603)

/-! ### U1: Huffman codes -/

/-- Reading the code that the canonical construction gives a symbol returns that symbol and consumes exactly its bits
(41_inflate.md R177, R178; 20_memory.md R73). -/
def Obligations.HuffmanDecodeInvertsCode : Prop :=
  ∀ (s : State) (t : List Nat) (sym : Nat), oversubscribed t = false → (∀ l ∈ t, l ≤ 15) →
    sym < t.length → 0 < t.getD sym 0 → s.StreamOk → s.BitsLeft (t.getD sym 0) →
    (∀ k, k < t.getD sym 0 →
      s.streamBit (s.regs.ipos.toNat + k) = codeOf t sym / 2 ^ (t.getD sym 0 - 1 - k) % 2) →
    s.decodeSymbol t = .ok sym (s.skip (t.getD sym 0))

/-- What `decode` returns is a symbol with a code, and the bits consumed are that code; what it raises is INPUT_EXHAUSTED, or
NO_CODE after exactly as many bits as the longest code has (41_inflate.md R178, R393 of 60_exceptions.md). -/
def Obligations.HuffmanDecodeSound : Prop :=
  (∀ (s s' : State) (t : List Nat) (sym : Nat), s.StreamOk → s.decodeSymbol t = .ok sym s' →
    sym < t.length ∧ 0 < t.getD sym 0 ∧ s.BitsLeft (t.getD sym 0) ∧ s' = s.skip (t.getD sym 0) ∧
    (∀ k, k < t.getD sym 0 →
      s.streamBit (s.regs.ipos.toNat + k) = codeOf t sym / 2 ^ (t.getD sym 0 - 1 - k) % 2)) ∧
  (∀ (s s' : State) (t : List Nat), s.StreamOk → s.decodeSymbol t = .raised s' →
    (s.BitsLeft (maxLen t) ∧ s' = (s.skip (maxLen t)).raise .noCode .inflate) ∨
    (¬ s.BitsLeft (maxLen t) ∧
      s' = (s.skip (8 * s.regs.inLen.toNat - s.regs.ipos.toNat)).raise .inputExhausted .inflate))

/-! ### U1: symbols -/

/-- LIT appends its byte at `RAW_LEN`, the capacity doubling up to `RAW_MAX` when it is reached; at `RAW_LEN = RAW_MAX` it raises
RAW_OVERFLOW. Every other byte of `RAW` and everything else is as before (41_inflate.md R175, R176, R196). -/
def Obligations.LiteralEmits : Prop :=
  (∀ (b : Byte) (s : State), s.InflateInv → s.RoomFor 1 →
    ∃ t, exec (.lit b) s = .next t ∧ t.regs.rawLen.toNat = s.regs.rawLen.toNat + 1 ∧
      t.byteAt .raw s.regs.rawLen.toNat = b ∧ (∀ k, k ≠ s.regs.rawLen.toNat → t.byteAt .raw k = s.byteAt .raw k) ∧
      t.regs.rawCap.toNat =
        (if s.regs.rawLen = s.regs.rawCap then min (2 * s.regs.rawCap.toNat) s.params.rawMax else s.regs.rawCap.toNat) ∧
      t = { s with
        regs := { s.regs with rawLen := t.regs.rawLen, rawCap := t.regs.rawCap }, buf := { s.buf with raw := t.buf.raw } }) ∧
  (∀ (b : Byte) (s : State), s.InflateInv → s.regs.rawLen.toNat = s.params.rawMax →
    exec (.lit b) s = .next { s with regs := { s.regs with err := 0x00010108 }, phase := .fault })

/-- EOB emits nothing; with `BFINAL = 1` INFLATE completes (`RAW_VALID = 1`, `PHASE = DONE`, and `IPOS` has a specified value again:
log entry 19), else a header is next, at the current `IPOS` (41_inflate.md R195, 10_state.md R36). -/
def Obligations.EndOfBlock : Prop :=
  ∀ s : State,
    (s.u1.bfinal = 1 → exec .eob s = .next { s with valid := { s.valid with raw := true }, phase := .done, iposKnown := true }) ∧
    (s.u1.bfinal = 0 → exec .eob s = .next { s with phase := .busy .header })

/-- Every `LEN` symbol, 257 to 285: `length = base + getbits(extra)`, from 3 to 258, and the distance symbol follows; INPUT_EXHAUSTED if the
extra bits are not all there (30_encoding.md R108, 41_inflate.md R198). -/
def Obligations.LengthSymbols : Prop :=
  ∀ (k : Nat) (i : Instr) (base extra : Nat), lengthSymbols[k]? = some (i, base, extra) →
    decode .ll (257 + k) = .ok i ∧ 3 ≤ base ∧ base + 2 ^ extra ≤ 259 ∧
    (∀ s : State, s.StreamOk → s.BitsLeft extra →
      exec i s = .next { s.skip extra with
        u1 := { s.u1 with matchLen := base + s.streamField s.regs.ipos.toNat extra }, phase := .busy .dSymbol }) ∧
    (∀ s : State, s.StreamOk → ¬ s.BitsLeft extra →
      ∃ t, exec i s = .next t ∧ t.phase = .fault ∧ t.regs.err = 0x00010603)

/-- Every `DIST` symbol, 0 to 29: with `distance = base + getbits(extra)` inside the output and room in `RAW`, the pending length is copied byte
by byte, each byte equal to the one `distance` before it in the result; every other byte of `RAW` is as before. A distance beyond
the output raises DISTANCE_TOO_FAR before any byte is emitted; without the extra bits INPUT_EXHAUSTED; without room for the whole copy
RAW_OVERFLOW. That after RAW_OVERFLOW `RAW` and `RAW_LEN` hold the bytes copied up to `RAW_MAX`, and after INPUT_EXHAUSTED what they held
before, is the model's choice (log entry 22), since the spec calls those contents unspecified (30_encoding.md R109, 41_inflate.md R176,
R194, R198). -/
def Obligations.DistanceSymbolsCopy : Prop :=
  ∀ (d : Nat) (i : Instr) (base extra : Nat), distanceSymbols[d]? = some (i, base, extra) → decode .d d = .ok i ∧
    ∀ s : State, s.InflateInv → s.StreamOk →
    (¬ s.BitsLeft extra → ∃ t, exec i s = .next t ∧ s.InflateFrame t ∧ t.phase = .fault ∧ t.regs.err = 0x00010603 ∧
      t.valid = s.valid ∧ t.buf = s.buf ∧ t.regs.rawLen = s.regs.rawLen ∧ t.regs.rawCap = s.regs.rawCap ∧ t.u1 = s.u1) ∧
    (s.BitsLeft extra → base + s.streamField s.regs.ipos.toNat extra ≤ s.regs.rawLen.toNat → ¬ s.RoomFor s.u1.matchLen →
      ∃ t, exec i s = .next t ∧ s.InflateFrame t ∧ t.phase = .fault ∧ t.regs.err = 0x00010108 ∧ t.valid = s.valid ∧
        t.regs.rawLen.toNat = s.params.rawMax ∧
        (∀ k, s.regs.rawLen.toNat ≤ k → k < s.params.rawMax → t.byteAt .raw k =
          t.byteAt .raw (k - (base + s.streamField s.regs.ipos.toNat extra))) ∧
        (∀ k, k < s.regs.rawLen.toNat ∨ s.params.rawMax ≤ k → t.byteAt .raw k = s.byteAt .raw k)) ∧
    (s.BitsLeft extra → base + s.streamField s.regs.ipos.toNat extra ≤ s.regs.rawLen.toNat → s.RoomFor s.u1.matchLen →
      ∃ t, exec i s = .next t ∧ s.InflateFrame t ∧ t.phase = .busy .llSymbol ∧ t.valid = s.valid ∧ t.regs.err = s.regs.err ∧
        t.iposKnown = s.iposKnown ∧
        t.regs.ipos.toNat = s.regs.ipos.toNat + extra ∧ t.regs.rawLen.toNat = s.regs.rawLen.toNat + s.u1.matchLen ∧
        t.u1 = { s.u1 with matchLen := 0, matchDist := base + s.streamField s.regs.ipos.toNat extra } ∧
        (∀ k, k < s.u1.matchLen → t.byteAt .raw (s.regs.rawLen.toNat + k) =
          t.byteAt .raw (s.regs.rawLen.toNat + k - (base + s.streamField s.regs.ipos.toNat extra))) ∧
        (∀ k, k < s.regs.rawLen.toNat ∨ s.regs.rawLen.toNat + s.u1.matchLen ≤ k → t.byteAt .raw k = s.byteAt .raw k)) ∧
    (s.BitsLeft extra → s.regs.rawLen.toNat < base + s.streamField s.regs.ipos.toNat extra →
      exec i s = .next { s.skip extra with
        u1 := { s.u1 with matchDist := base + s.streamField s.regs.ipos.toNat extra },
        regs := { (s.skip extra).regs with err := 0x00010303 }, phase := .fault })

/-- `BTYPE = 3` raises BAD_BTYPE, symbols 286 and 287 BAD_LENGTH_SYMBOL, distance symbols 30 and 31 BAD_DISTANCE_SYMBOL; no further bit
is read and nothing else changes (41_inflate.md R185, R193). -/
def Obligations.IllegalElementsRaise : Prop :=
  (∀ s : State, exec .btypeIllegal s = .next { s with regs := { s.regs with err := 0x00010103 }, phase := .fault }) ∧
  (∀ (sym : BitVec 9) (s : State),
    exec (.llIllegal286To287 sym) s = .next { s with regs := { s.regs with err := 0x00010403 }, phase := .fault }) ∧
  (∀ (sym : BitVec 5) (s : State),
    exec (.dIllegal30To31 sym) s = .next { s with regs := { s.regs with err := 0x00010503 }, phase := .fault }) ∧
  decode .body 6 = .ok .btypeIllegal ∧ decode .body 7 = .ok .btypeIllegal ∧ decode .ll 286 = .ok (.llIllegal286To287 286) ∧
  decode .ll 287 = .ok (.llIllegal286To287 287) ∧ decode .d 30 = .ok (.dIllegal30To31 30) ∧
  decode .d 31 = .ok (.dIllegal30To31 31)

/-- STORED: from the next byte boundary, `LEN` (low byte first), two bytes that are read and not used, then `LEN` bytes appended to
`RAW`; the block ends like any other. The rest of `RAW`, the table RAMs and everything else are as before. INPUT_EXHAUSTED when the
payload ends in the four length bytes or in the data; RAW_OVERFLOW when `RAW_MAX` is reached before that. That after a fault `RAW` and
`RAW_LEN` hold the bytes emitted before it, and no others, is the model's choice (log entry 22), since the spec calls those contents
unspecified (41_inflate.md R176, R183, R195; 60_exceptions.md R393). -/
def Obligations.StoredBlockCopies : Prop :=
  ∀ (s : State) (k len : Nat), s.InflateInv → s.StreamOk → k = (s.regs.ipos.toNat + 7) / 8 →
    len = (s.byteAt .inp k).toNat + 256 * (s.byteAt .inp (k + 1)).toNat →
    (k + 4 + len ≤ s.regs.inLen.toNat → s.RoomFor len →
      ∃ t, exec .stored s = .next t ∧ s.InflateFrame t ∧ t.regs.err = s.regs.err ∧
        t.u1 = { s.u1 with storedLen := 0 } ∧ t.regs.ipos.toNat = 8 * (k + 4 + len) ∧ s.Stores t (k + 4) len ∧
        (s.u1.bfinal = 1 → t.phase = .done ∧ t.valid = { s.valid with raw := true } ∧ t.iposKnown = true) ∧
        (s.u1.bfinal = 0 → t.phase = .busy .header ∧ t.valid = s.valid ∧ t.iposKnown = s.iposKnown)) ∧
    (s.regs.inLen.toNat < k + 4 →
      ∃ t, exec .stored s = .next t ∧ s.InflateFrame t ∧ t.phase = .fault ∧ t.regs.err = 0x00010603 ∧ t.valid = s.valid ∧
        t.buf = s.buf ∧ t.regs.rawLen = s.regs.rawLen ∧ t.regs.rawCap = s.regs.rawCap) ∧
    (∀ avail, k + 4 + avail = s.regs.inLen.toNat → avail < len → s.RoomFor avail →
      ∃ t, exec .stored s = .next t ∧ s.InflateFrame t ∧ t.phase = .fault ∧ t.regs.err = 0x00010603 ∧ t.valid = s.valid ∧
        s.Stores t (k + 4) avail) ∧
    (∀ room, s.regs.rawLen.toNat + room = s.params.rawMax → room < len → k + 4 + room < s.regs.inLen.toNat →
      ∃ t, exec .stored s = .next t ∧ s.InflateFrame t ∧ t.phase = .fault ∧ t.regs.err = 0x00010108 ∧ t.valid = s.valid ∧
        s.Stores t (k + 4) room)

/-- What any stream element can change, wherever it is executed: `IPOS`, `RAW_LEN`, `RAW_CAP`, `ERR`, `PHASE`, `RAW_VALID`, the bytes
of `RAW` and U1's own state; and every element but STORED, LIT and DIST leaves `RAW` alone, a byte of `RAW` below `RAW_LEN` never
being changed by any (41_inflate.md R175, R179; 10_state.md R38). -/
def Obligations.StreamElementFrame : Prop :=
  (∀ (i : Instr) (s t : State), isStreamElement i = true → exec i s = .next t → s.InflateFrame t) ∧
  (∀ (i : Instr) (s t : State), isStreamElement i = true → exec i s = .next t →
    i ≠ .stored → (∀ b, i ≠ .lit b) → (∀ base extra, (i, base, extra) ∉ distanceSymbols) →
    t.buf = s.buf ∧ t.regs.rawLen = s.regs.rawLen ∧ t.regs.rawCap = s.regs.rawCap) ∧
  (∀ (i : Instr) (s t : State), isStreamElement i = true → s.InflateInv → exec i s = .next t →
    s.regs.rawLen.toNat ≤ t.regs.rawLen.toNat ∧
    ∀ k, k < s.regs.rawLen.toNat ∨ t.regs.rawLen.toNat ≤ k → t.byteAt .raw k = s.byteAt .raw k)

/-! ### U2 and U3 -/

/-- RECON in IDLE or DONE: the five admission checks in order, each with its fault and nothing else changed; admitted, `TILE_VALID` is
cleared and the first scanline is next, with `PRIOR` all zero (40_commands.md R142, R143, R148; 42_scanline.md R240 to R242, R245). That
the buffer's unspecified bytes are so from now on anew is noted in `fills` (log entry 28). -/
def Obligations.ReconAdmissionOrder : Prop :=
  ∀ s : State, s.Ready → exec .recon s = .next (
    if s.valid.raw = false then { s with regs := { s.regs with err := 0x00020207 }, phase := .fault }
    else if (s.colorType, s.bitDepth) ∉ legalPairs then { s with regs := { s.regs with err := 0x00020102 }, phase := .fault }
    else if ¬ s.SizeOk s.regs.fW s.regs.fH then { s with regs := { s.regs with err := 0x00020307 }, phase := .fault }
    else if ¬ s.TransparencyOk then { s with regs := { s.regs with err := 0x00020307 }, phase := .fault }
    else if s.regs.rawLen.toNat < s.streamNeed then { s with regs := { s.regs with err := 0x00020205 }, phase := .fault }
    else { s with
      valid := { s.valid with tile := false }, pristine := false, phase := .busy .scanline,
      fills := { s.fills with tile := s.fills.tile + 1 },
      u2 := { passIdx := 0, row := 0, pos := 0, cur := s.u2.cur,
              prior := List.replicate (s.rowbytes (if s.interlaced then (s.regs.fW.toNat + 7) / 8 else s.regs.fW.toNat)) 0 } })

/-- Filter reversal, byte by byte: each byte is the raw byte plus its prediction from the byte `bpp` to the left in the result, the
byte above and the byte above-left, neighbours outside the line being 0, modulo 256; the filter bytes 0 to 3 and
their predictions (42_scanline.md R246 to R250; type 4 is the statement PaethPicksNearest). -/
def Obligations.FilterReversal : Prop :=
  (∀ (ft : Filter) (bpp : Nat) (cur prior : List Byte), 1 ≤ bpp →
    (unfilter ft bpp cur prior).length = cur.length ∧
    ∀ i, i < cur.length → (unfilter ft bpp cur prior).getD i 0 =
      BitVec.ofNat 8 ((cur.getD i 0).toNat + predictor ft
        (if bpp ≤ i then ((unfilter ft bpp cur prior).getD (i - bpp) 0).toNat else 0)
        (prior.getD i 0).toNat
        (if bpp ≤ i then (prior.getD (i - bpp) 0).toNat else 0))) ∧
  (∀ a b c : Nat, predictor .none a b c = 0 ∧ predictor .sub a b c = a ∧ predictor .up a b c = b ∧
    predictor .average a b c = (a + b) / 2) ∧
  decode .filter 0 = .ok .filterNone ∧ decode .filter 1 = .ok .filterSub ∧ decode .filter 2 = .ok .filterUp ∧
  decode .filter 3 = .ok .filterAverage ∧
  (∀ line prior : List Byte, line = [0x01, 0x02, 0x03, 0xFA, 0xFB, 0xFC] → prior = [0x0A, 0x14, 0x1E, 0x28, 0x32, 0x3C] →
    unfilter .none 3 line prior = line ∧ unfilter .sub 3 line prior = [0x01, 0x02, 0x03, 0xFB, 0xFD, 0xFF] ∧
    unfilter .up 3 line prior = [0x0B, 0x16, 0x21, 0x22, 0x2D, 0x38] ∧
    unfilter .average 3 line prior = [0x06, 0x0C, 0x12, 0x11, 0x1A, 0x23])

/-- Filtering a line with any of the five types and reversing it gives the line back (42_scanline.md R261). -/
def Obligations.FilterIdentity : Prop :=
  ∀ (ft : Filter) (bpp : Nat) (line prior : List Byte), 1 ≤ bpp →
    unfilter ft bpp (filterForward ft bpp line prior) prior = line

/-- The Paeth predictor is one of its three arguments, none of the others is nearer to `a + b - c`, ties are broken in the order
a, b, c; it is `a` when `b = c = 0` and `b` when `a = c = 0`; the spec's values (42_scanline.md R251). -/
def Obligations.PaethPicksNearest : Prop :=
  (∀ a b c : Nat,
    (paeth a b c = a ∨ paeth a b c = b ∨ paeth a b c = c) ∧
    (∀ x ∈ [a, b, c], ((a : Int) + b - c - paeth a b c).natAbs ≤ ((a : Int) + b - c - x).natAbs) ∧
    (((a : Int) + b - c - paeth a b c).natAbs = ((a : Int) + b - c - a).natAbs → paeth a b c = a) ∧
    (((a : Int) + b - c - paeth a b c).natAbs = ((a : Int) + b - c - b).natAbs → paeth a b c = a ∨ paeth a b c = b)) ∧
  (∀ a : Nat, paeth a 0 0 = a) ∧ (∀ b : Nat, paeth 0 b 0 = b) ∧
  paeth 10 20 15 = 15 ∧ paeth 10 10 10 = 10 ∧ paeth 5 7 6 = 6 ∧ paeth 0 200 100 = 100 ∧ paeth 100 0 200 = 0 ∧
  paeth 50 60 70 = 50 ∧ paeth 3 5 4 = 4 ∧ paeth 0 30 10 = 30 ∧ paeth 30 0 10 = 30 ∧
  (∀ (a b c : Nat), predictor .paeth a b c = paeth a b c) ∧ decode .filter 4 = .ok .filterPaeth

/-- A scanline with a legal filter byte: each pixel of the reversed line is written at its place in `TILE`, every other byte of
`TILE` is as before, the read position moves past the line, and then follows the next row of the pass with `PRIOR` the line just
reversed, or after the last row the next non-empty pass with `PRIOR` all zero, or after the last pass the end of RECON with `TILE_W`,
`TILE_H` set. With an index beyond the palette it raises PALETTE_INDEX_RANGE at the first such pixel; that the pixels before it have then
been written, as R240 orders them, is log entries 22 and 25, since the spec calls the tile's contents after a fault unspecified. Only the
tile, its registers and flag and U2's state change. The samples of a line, their reduction to 8 bits, and the pixel of each colour
type (42_scanline.md R240, R246 to R251, R253 to R260; 43_deinterlace.md R282, R283, R285). -/
def Obligations.LineCompletes : Prop :=
  (∀ (i : Instr) (ft : Filter), (i, ft) ∈ filterRows → ∀ s : State, s.SizeInv → s.phase = .busy .scanline →
    ((s.colorType = 3 → ∀ col, col < s.currentPass.pw → samp s.bitDepth (s.lineOut ft) col < s.regs.palN.toNat) →
      ∃ t, exec i s = .next t ∧ s.ReconFrame t ∧ t.regs.err = s.regs.err ∧
        (s.u2.row + 1 < s.currentPass.ph → t.phase = .busy .scanline ∧ t.valid = s.valid ∧ t.regs = s.regs ∧
          t.u2.passIdx = s.u2.passIdx ∧ t.u2.row = s.u2.row + 1 ∧ t.u2.prior = s.lineOut ft) ∧
        (∀ (k : Nat) (p : Pass), s.u2.row + 1 = s.currentPass.ph → s.u2.passIdx < k → s.passes[k]? = some p →
          1 ≤ p.pw → 1 ≤ p.ph →
          (∀ (j : Nat) (e : Pass), s.u2.passIdx < j → j < k → s.passes[j]? = some e → e.pw = 0 ∨ e.ph = 0) →
          t.phase = .busy .scanline ∧ t.valid = s.valid ∧ t.regs = s.regs ∧
          t.u2.passIdx = k ∧ t.u2.row = 0 ∧ t.u2.prior = List.replicate (s.rowbytes p.pw) 0) ∧
        (s.u2.row + 1 = s.currentPass.ph →
          (∀ (j : Nat) (e : Pass), s.u2.passIdx < j → s.passes[j]? = some e → e.pw = 0 ∨ e.ph = 0) →
          t.phase = .done ∧ t.valid = { s.valid with tile := true } ∧
          t.regs = { s.regs with tileW := s.regs.fW, tileH := s.regs.fH }) ∧
        t.u2.pos = s.u2.pos + (1 + s.rowbytes s.currentPass.pw) ∧ t.u2.cur = s.lineOut ft ∧
        (∀ col, col < s.currentPass.pw → s.pixel (s.lineOut ft) col = some (t.pixelAt .tile (s.lineIndex col))) ∧
        (∀ k, s.OutsideLine s.currentPass.pw k → t.byteAt .tile k = s.byteAt .tile k)) ∧
    (∀ bad, s.colorType = 3 → bad < s.currentPass.pw → s.regs.palN.toNat ≤ samp s.bitDepth (s.lineOut ft) bad →
      (∀ col, col < bad → samp s.bitDepth (s.lineOut ft) col < s.regs.palN.toNat) →
      ∃ t, exec i s = .next t ∧ t = { s with
          regs := { s.regs with err := 0x00020305 }, phase := .fault, buf := { s.buf with tile := t.buf.tile },
          u2 := { s.u2 with pos := s.u2.pos + (1 + s.rowbytes s.currentPass.pw), cur := s.lineOut ft } } ∧
        (∀ col, col < bad → s.pixel (s.lineOut ft) col = some (t.pixelAt .tile (s.lineIndex col))) ∧
        (∀ k, s.OutsideLine bad k → t.byteAt .tile k = s.byteAt .tile k))) ∧
  (∀ (d k j : Nat) (line : List Byte), d ∈ [1, 2, 4, 8, 16] →
    samp d line k < 2 ^ d ∧
    (j < d → (samp d line k).testBit (d - 1 - j) = (line.getD ((d * k + j) / 8) 0).toNat.testBit (7 - (d * k + j) % 8))) ∧
  (∀ d v : Nat, v < 2 ^ d →
    (d ∈ [1, 2, 4, 8] → (to8 d v).toNat * (2 ^ d - 1) = 255 * v) ∧ (d = 16 → (to8 d v).toNat = v / 256)) ∧
  (∀ (s : State) (line : List Byte) (col d : Nat) (v : Nat → Nat), d = s.bitDepth → v = samp d line →
    (s.colorType = 0 → s.pixel line col = some ⟨to8 d (v col), to8 d (v col), to8 d (v col),
      if s.trMode = 2 ∧ v col = s.regs.key0.toNat % 65536 then 0 else 255⟩) ∧
    (s.colorType = 4 → s.pixel line col = some ⟨to8 d (v (2 * col)), to8 d (v (2 * col)), to8 d (v (2 * col)),
      to8 d (v (2 * col + 1))⟩) ∧
    (s.colorType = 2 → s.pixel line col = some ⟨to8 d (v (3 * col)), to8 d (v (3 * col + 1)), to8 d (v (3 * col + 2)),
      if s.trMode = 3 ∧ v (3 * col) = s.regs.key0.toNat % 65536 ∧ v (3 * col + 1) = s.regs.key1.toNat % 65536 ∧
        v (3 * col + 2) = s.regs.key2.toNat % 65536 then 0 else 255⟩) ∧
    (s.colorType = 6 → s.pixel line col = some ⟨to8 d (v (4 * col)), to8 d (v (4 * col + 1)), to8 d (v (4 * col + 2)),
      to8 d (v (4 * col + 3))⟩) ∧
    (s.colorType = 3 → s.pixel line col = if s.regs.palN.toNat ≤ v col then none else some
      ⟨s.byteAt .pal (3 * v col), s.byteAt .pal (3 * v col + 1), s.byteAt .pal (3 * v col + 2),
        if s.trMode = 1 ∧ v col < s.trN then s.byteAt .trns (v col) else 255⟩))

/-- Filter types 5 to 255 raise BAD_FILTER_TYPE when the line's filter byte is read; nothing else changes, so `TILE_VALID` stays as it
was (42_scanline.md R252). -/
def Obligations.FilterIllegalRaises : Prop :=
  (∀ w, 5 ≤ w → w ≤ 255 → decode .filter w = .ok (.filterIllegal (BitVec.ofNat 8 w))) ∧
  (∀ (ft : Byte) (s : State),
    exec (.filterIllegal ft) s = .next { s with regs := { s.regs with err := 0x00020105 }, phase := .fault }) ∧
  (∀ s : State, s.script = [] → s.phase = .busy .scanline → 5 ≤ (s.byteAt .raw s.u2.pos).toNat →
    step s = .next { s with regs := { s.regs with err := 0x00020105 }, phase := .fault })

/-- Every pixel of an interlaced image belongs to exactly one pass, one row and one column of it; the seven passes' origins and steps,
and their dimensions for small images; `bits_per_pixel` and `bpp` of the 15 pairs, the bytes of a line rounded up, and the length of the
whole stream, plain and interlaced (43_deinterlace.md R280 to R286, 42_scanline.md R243 to R245). -/
def Obligations.PassesCoverOnce : Prop :=
  (∀ w h x y : Nat, x < w → y < h →
    ∃ (k row col : Nat) (p : Pass), (passList w h true)[k]? = some p ∧ row < p.ph ∧ col < p.pw ∧
      x = p.sc + col * p.cs ∧ y = p.sr + row * p.rs ∧
      ∀ (k' row' col' : Nat) (p' : Pass), (passList w h true)[k']? = some p' → row' < p'.ph → col' < p'.pw →
        x = p'.sc + col' * p'.cs → y = p'.sr + row' * p'.rs → k' = k ∧ row' = row ∧ col' = col) ∧
  (∀ w h : Nat, (passList w h true).map (fun p => (p.sr, p.sc, p.rs, p.cs)) =
    [(0, 0, 8, 8), (0, 4, 8, 8), (4, 0, 8, 4), (0, 2, 4, 4), (2, 0, 4, 2), (0, 1, 2, 2), (1, 0, 2, 1)]) ∧
  (∀ w h : Nat, passList w h false = [{ sr := 0, sc := 0, rs := 1, cs := 1, pw := w, ph := h }]) ∧
  (∀ (s : State) (w h need : Nat) (dims : List (Nat × Nat)), (w, h, dims, need) ∈ smallImages →
    (passList w h true).map (fun p => (p.pw, p.ph)) = dims ∧
    (s.regs.fW.toNat = w → s.regs.fH.toNat = h → s.interlaced = true → s.colorType = 0 → s.bitDepth = 8 → s.streamNeed = need)) ∧
  (∀ (s : State) (ct d bits bpp : Nat), (ct, d, bits, bpp) ∈ pixelWidths → s.colorType = ct → s.bitDepth = d →
    s.bitsPerPixel = bits ∧ s.bpp = bpp) ∧
  (∀ (s : State) (pw : Nat), pw * s.bitsPerPixel ≤ 8 * s.rowbytes pw ∧ 8 * s.rowbytes pw < pw * s.bitsPerPixel + 8) ∧
  (∀ s : State, 1 ≤ s.regs.fW.toNat → s.interlaced = false →
    s.streamNeed = s.regs.fH.toNat * (1 + s.rowbytes s.regs.fW.toNat))

/-! ### U4 -/

/-- CANVAS_INIT: a legal size is latched, the canvas is zero-filled, `FRAME_CNT` is 0, the command is done; another size raises
PARAM_RANGE. Nothing else changes (40_commands.md R149, 44_compositor.md R290). That the buffer's unspecified bytes are so from now on
anew is noted in `fills` (log entry 28). -/
def Obligations.CanvasInitClears : Prop :=
  (∀ s : State, s.Ready → s.SizeOk s.regs.imgW s.regs.imgH →
    ∃ t, exec .canvasInit s = .next t ∧
      (∀ k, k < 4 * s.regs.imgW.toNat * s.regs.imgH.toNat → t.byteAt .canvas k = 0) ∧
      (∀ k, 4 * s.regs.imgW.toNat * s.regs.imgH.toNat ≤ k → t.byteAt .canvas k = s.byteAt .canvas k) ∧
      t = { s with
        regs := { s.regs with canvasW := s.regs.imgW, canvasH := s.regs.imgH, frameCnt := 0 },
        valid := { s.valid with canvas := true }, phase := .done, pristine := false,
        fills := { s.fills with canvas := s.fills.canvas + 1 },
        buf := { s.buf with canvas := t.buf.canvas } }) ∧
  (∀ s : State, s.Ready → ¬ s.SizeOk s.regs.imgW s.regs.imgH →
    exec .canvasInit s = .next { s with regs := { s.regs with err := 0x00040307 }, phase := .fault })

/-- COMPOSE in IDLE or DONE: the four admission checks in order, each with its fault and nothing else changed; admitted, the flags of
`CANVAS` and `OUT` are cleared, the canvas is saved if the dispose mode is restorePrevious, and the blend mode is next (40_commands.md
R142, R143, R150; 44_compositor.md R291 to R293, R307). That the unspecified bytes of `CANVAS` and `OUT` are so from now on anew is
noted in `fills` (log entry 28). -/
def Obligations.ComposeAdmissionOrder : Prop :=
  ∀ s : State, s.Ready →
    ∃ t, exec .compose s = .next t ∧
      (if ¬(s.valid.tile = true ∧ s.valid.canvas = true) then
        t = { s with regs := { s.regs with err := 0x00040207 }, phase := .fault }
      else if ¬(s.regs.fW = s.regs.tileW ∧ s.regs.fH = s.regs.tileH) then
        t = { s with regs := { s.regs with err := 0x00040707 }, phase := .fault }
      else if ¬ s.RectInside then t = { s with regs := { s.regs with err := 0x00040407 }, phase := .fault }
      else if ¬(s.blendMode ≤ 1 ∧ s.disposeMode ≤ 2) then
        t = { s with regs := { s.regs with err := 0x00040507 }, phase := .fault }
      else
        t = { s with
          valid := { s.valid with canvas := false, out := false, save := s.valid.save || s.disposeMode == 2 },
          phase := .busy .blend, pristine := false, buf := { s.buf with save := t.buf.save },
          fills := { s.fills with canvas := s.fills.canvas + 1, out := s.fills.out + 1 } } ∧
        (s.disposeMode = 2 → (∀ k, k < s.canvasBytes → t.byteAt .save k = s.byteAt .canvas k) ∧
          ∀ k, s.canvasBytes ≤ k → t.byteAt .save k = s.byteAt .save k) ∧
        (s.disposeMode ≠ 2 → t.buf.save = s.buf.save))

/-- The blend: with source each pixel of the rectangle becomes the tile's pixel, with over `over(S, D)`; the rest of the canvas is as
before; `OUT` is then the whole canvas, with its size, and `FRAME_CNT` has gone up by one. The dispose mode is next. The reserved
modes 2 and 3 raise BAD_MODE (44_compositor.md R291, R294, R295, R297, R307). -/
def Obligations.BlendCompletes : Prop :=
  (∀ (i : Instr) (mix : Pixel → Pixel → Pixel), (i = .blendSource ∧ mix = fun src _ => src) ∨ (i = .blendOver ∧ mix = overPixel) →
    ∀ s : State, s.SizeInv → s.phase = .busy .blend →
    ∃ t, exec i s = .next t ∧ s.ComposeFrame t ∧ t.phase = .busy .dispose ∧ t.valid = s.valid ∧
      (∀ x y, x < s.regs.fW.toNat → y < s.regs.fH.toNat → t.pixelAt .canvas (s.canvasIndex x y) =
        mix (s.pixelAt .tile (s.tileIndex x y)) (s.pixelAt .canvas (s.canvasIndex x y))) ∧
      (∀ k, s.OutsideRect k → t.byteAt .canvas k = s.byteAt .canvas k) ∧
      (∀ k, k < s.canvasBytes → t.byteAt .out k = t.byteAt .canvas k) ∧
      (∀ k, s.canvasBytes ≤ k → t.byteAt .out k = s.byteAt .out k) ∧
      t.regs.outLen.toNat = s.canvasBytes ∧ t.regs.outW = s.regs.canvasW ∧ t.regs.outH = s.regs.canvasH ∧
      (s.regs.frameCnt.toNat + 1 < 2 ^ 32 →
        t.regs.frameCnt.toNat = s.regs.frameCnt.toNat + 1 ∧ t.freeCtr = s.freeCtr)) ∧
  (∀ (b : BitVec 2) (s : State),
    exec (.blendReserved2To3 b) s = .next { s with regs := { s.regs with err := 0x00040507 }, phase := .fault })

/-- `over(S, D)` is the integer formula exactly, no byte being cut off; and its corner cases (44_compositor.md R296, R303). -/
def Obligations.OverIsExact : Prop :=
  (∀ (src dst : Pixel) (n : Nat), n = 255 * src.a.toNat + dst.a.toNat * (255 - src.a.toNat) →
    n ≤ 65025 ∧ (overPixel src dst).a.toNat = n / 255 ∧
    (∀ sel : Pixel → Byte, sel = Pixel.r ∨ sel = Pixel.g ∨ sel = Pixel.b →
      (n = 0 → sel (overPixel src dst) = 0) ∧
      (n ≠ 0 → (sel (overPixel src dst)).toNat =
        (255 * src.a.toNat * (sel src).toNat + dst.a.toNat * (255 - src.a.toNat) * (sel dst).toNat) / n))) ∧
  (∀ src dst : Pixel, src.a = 255 → overPixel src dst = src) ∧
  (∀ src dst : Pixel, src.a = 0 → dst.a ≠ 0 → overPixel src dst = dst) ∧
  (∀ src dst : Pixel, src.a = 0 → dst.a = 0 → overPixel src dst = { r := 0, g := 0, b := 0, a := 0 }) ∧
  (∀ src dst : Pixel, src.a ≠ 0 → dst.a = 0 → overPixel src dst = src) ∧
  (∀ src dst : Pixel, dst.a = 255 → (overPixel src dst).a = 255 ∧
    ∀ sel : Pixel → Byte, sel = Pixel.r ∨ sel = Pixel.g ∨ sel = Pixel.b →
      (sel (overPixel src dst)).toNat = (src.a.toNat * (sel src).toNat + (255 - src.a.toNat) * (sel dst).toNat) / 255) ∧
  overPixel ⟨0x00, 0x00, 0xFF, 0x80⟩ ⟨0xFF, 0x00, 0x00, 0xFF⟩ = ⟨0x7F, 0x00, 0x80, 0xFF⟩ ∧
  overPixel ⟨0x0A, 0x14, 0x1E, 0x00⟩ ⟨0x01, 0x02, 0x03, 0x00⟩ = ⟨0x00, 0x00, 0x00, 0x00⟩ ∧
  overPixel ⟨0xC8, 0x64, 0x32, 0x80⟩ ⟨0x00, 0x00, 0x00, 0x00⟩ = ⟨0xC8, 0x64, 0x32, 0x80⟩ ∧
  overPixel ⟨0xC8, 0x64, 0x32, 0x80⟩ ⟨0x64, 0xC8, 0xFA, 0x40⟩ = ⟨0xB4, 0x77, 0x59, 0x9F⟩ ∧
  overPixel ⟨0x09, 0x09, 0x09, 0xFF⟩ ⟨0x01, 0x02, 0x03, 0x4D⟩ = ⟨0x09, 0x09, 0x09, 0xFF⟩ ∧
  overPixel ⟨0x09, 0x09, 0x09, 0x00⟩ ⟨0x01, 0x02, 0x03, 0x4D⟩ = ⟨0x01, 0x02, 0x03, 0x4D⟩

/-- The dispose modes, each ending COMPOSE with `CANVAS_VALID` and `OUT_VALID` 1 and `PHASE` DONE: none leaves the canvas; clear zeroes
the rectangle and nothing else; restore puts the saved canvas back and drops `SAVE_VALID`; `OUT` is never touched. Mode 3 raises
BAD_MODE (44_compositor.md R297 to R300, R306, R307). -/
def Obligations.DisposeCompletes : Prop :=
  (∀ s : State, exec .disposeNone s =
    .next { s with valid := { s.valid with canvas := true, out := true }, phase := .done }) ∧
  (∀ s : State, s.SizeInv → s.phase = .busy .dispose →
    ∃ t, exec .disposeClearToBackground s = .next t ∧
      (∀ x y, x < s.regs.fW.toNat → y < s.regs.fH.toNat →
        t.pixelAt .canvas (s.canvasIndex x y) = { r := 0, g := 0, b := 0, a := 0 }) ∧
      (∀ k, s.OutsideRect k → t.byteAt .canvas k = s.byteAt .canvas k) ∧
      t = { s with
        valid := { s.valid with canvas := true, out := true }, phase := .done, buf := { s.buf with canvas := t.buf.canvas } }) ∧
  (∀ s : State,
    ∃ t, exec .disposeRestorePrevious s = .next t ∧
      (∀ k, k < s.canvasBytes → t.byteAt .canvas k = s.byteAt .save k) ∧
      (∀ k, s.canvasBytes ≤ k → t.byteAt .canvas k = s.byteAt .canvas k) ∧
      t = { s with
        valid := { s.valid with canvas := true, out := true, save := false }, phase := .done,
        buf := { s.buf with canvas := t.buf.canvas } }) ∧
  (∀ s : State, exec .disposeReserved3 s = .next { s with regs := { s.regs with err := 0x00040507 }, phase := .fault })

/-- A whole COMPOSE with dispose mode restorePrevious, from the `CMD` write to DONE: the canvas is byte for byte what it was before,
though the snapshot in `OUT` has the tile blended in; no fault can occur (40_commands.md R150; 44_compositor.md R291, R293, R300,
R301). That it takes three steps is the model's choice (log entry 18). -/
def Obligations.RestorePreviousRestores : Prop :=
  ∀ (s : State) (e : Bool) (v : Word), s.Inv → s.Ready → s.script = [{ early := e, op := .writeReg 0 v }] → v.toNat % 16 = 5 →
    s.composeAdmission = none → s.disposeMode = 2 → s.regs.frameCnt.toNat + 1 < 2 ^ 32 →
    ∃ t1 t2 t, step s = .next t1 ∧ step t1 = .next t2 ∧ step t2 = .next t ∧ t.phase = .done ∧
      t.valid = { s.valid with canvas := true, out := true, save := false } ∧
      (∀ k, k < s.canvasBytes → t.byteAt .canvas k = s.byteAt .canvas k) ∧
      t.regs.frameCnt.toNat = s.regs.frameCnt.toNat + 1 ∧ t.regs.outLen.toNat = s.canvasBytes ∧
      (∀ k, k < s.canvasBytes → s.OutsideRect k → t.byteAt .out k = s.byteAt .canvas k) ∧
      (∀ x y, x < s.regs.fW.toNat → y < s.regs.fH.toNat → t.pixelAt .out (s.canvasIndex x y) =
        if s.blendMode = 0 then s.pixelAt .tile (s.tileIndex x y)
        else overPixel (s.pixelAt .tile (s.tileIndex x y)) (s.pixelAt .canvas (s.canvasIndex x y)))

/-! ### U5 -/

/-- HASH_AVG on an accepted header: the three clamped integer numerators over 378 and the alpha numerator over 15, which are the exact
values of the decoder's colour formula; the two refusals in order (40_commands.md R153, 45_dct_hash.md R360). -/
def Obligations.HashAvgCompletes : Prop :=
  (∀ (s : State) (h : Nat), s.Ready → h = s.payloadByte 0 + 256 * s.payloadByte 1 + 65536 * s.payloadByte 2 →
    s.regs.inOff.toNat ≤ s.regs.inLen.toNat → s.regs.inLen.toNat ≤ s.params.inMax →
    5 ≤ s.regs.inLen.toNat - s.regs.inOff.toNat → (h / 2 ^ 23 % 2 = 1 → 6 ≤ s.regs.inLen.toNat - s.regs.inOff.toNat) →
    exec .hashAvg s = .next { s with
      regs := { s.regs with
        res0 := BitVec.ofNat 32 (max 0 (min 378
          (6 * (h % 64 : Nat) + 4 * (h / 64 % 64 : Nat) + 6 * (h / 4096 % 64 : Nat) - 315 : Int))).toNat
        res1 := BitVec.ofNat 32 (max 0 (min 378
          (6 * (h % 64 : Nat) + 4 * (h / 64 % 64 : Nat) - 6 * (h / 4096 % 64 : Nat) + 63 : Int))).toNat
        res2 := BitVec.ofNat 32 (max 0 (min 378 (6 * (h % 64 : Nat) - 8 * (h / 64 % 64 : Nat) + 252 : Int))).toNat
        res3 := BitVec.ofNat 32 (if h / 2 ^ 23 % 2 = 1 then s.payloadByte 5 % 16 else 15) },
      valid := { s.valid with res := true }, phase := .done, pristine := false }) ∧
  (∀ s : State, s.Ready → ¬(s.regs.inOff.toNat ≤ s.regs.inLen.toNat ∧ s.regs.inLen.toNat ≤ s.params.inMax) →
    exec .hashAvg s = .next { s with regs := { s.regs with err := 0x00050307 }, phase := .fault }) ∧
  (∀ s : State, s.Ready → s.regs.inOff.toNat ≤ s.regs.inLen.toNat → s.regs.inLen.toNat ≤ s.params.inMax →
    (s.regs.inLen.toNat - s.regs.inOff.toNat < 5 ∨
      (s.regs.inLen.toNat - s.regs.inOff.toNat = 5 ∧ s.payloadByte 2 / 128 = 1)) →
    exec .hashAvg s = .next { s with regs := { s.regs with err := 0x00050106 }, phase := .fault }) ∧
  (∀ (ld pd qd : Nat) (l p q b r g : Rat), ld < 64 → pd < 64 → qd < 64 →
    l = (ld : Rat) / 63 → p = (pd : Rat) / (63 / 2) - 1 → q = (qd : Rat) / (63 / 2) - 1 →
    b = l - 2 / 3 * p → r = (3 * l - b + q) / 2 → g = r - q →
    max 0 (min 1 r) = ((max 0 (min 378 (6 * (ld : Int) + 4 * pd + 6 * qd - 315)) : Int) : Rat) / 378 ∧
    max 0 (min 1 g) = ((max 0 (min 378 (6 * (ld : Int) + 4 * pd - 6 * qd + 63)) : Int) : Rat) / 378 ∧
    max 0 (min 1 b) = ((max 0 (min 378 (6 * (ld : Int) - 8 * pd + 252)) : Int) : Rat) / 378)

/-- HASH_ASPECT on an accepted header: `RES0 = lx`, `RES1 = ly`, `RES2 = RES3 = 0`, from `GRID`, the orientation flag and `hasAlpha`
alone; the refusals in order (40_commands.md R154, 45_dct_hash.md R341, R361). -/
def Obligations.HashAspectCompletes : Prop :=
  ∀ (s : State) (grid cap : Nat) (landscape : Bool), s.Ready →
    grid = s.payloadByte 3 % 8 → cap = (if s.payloadByte 2 / 128 % 2 = 1 then 5 else 7) →
    landscape = decide (s.payloadByte 4 / 128 % 2 = 1) →
    exec .hashAspect s = .next (
      if ¬(s.regs.inOff.toNat ≤ s.regs.inLen.toNat ∧ s.regs.inLen.toNat ≤ s.params.inMax) then
        { s with regs := { s.regs with err := 0x00050307 }, phase := .fault }
      else if s.regs.inLen.toNat - s.regs.inOff.toNat < 5 then
        { s with regs := { s.regs with err := 0x00050106 }, phase := .fault }
      else if grid = 0 then { s with regs := { s.regs with err := 0x00050206 }, phase := .fault }
      else { s with
        regs := { s.regs with
          res0 := BitVec.ofNat 32 (if landscape then cap else grid), res1 := BitVec.ofNat 32 (if landscape then grid else cap),
          res2 := 0, res3 := 0 },
        valid := { s.valid with res := true }, phase := .done, pristine := false })

/-- HASH_ENC: a dimension over 100 raises HASH_DIM before any other check; with legal dimensions and a payload of exactly `4*w*h` bytes
it puts the hash of the pixels, over the implementation's `NUMERICS`, in `OUT`, with `OUT_W = OUT_H = 0`, and changes nothing else
(40_commands.md R151, 60_exceptions.md R384, 45_dct_hash.md R320, R363). Where `NUMERICS` are not the exact reals, that the hash is
`hashEncode Config.numerics` is the model's choice: a free number system (log entry 12), the order of evaluation (26) and what a value
out of its field's range becomes (27). That the buffer's unspecified bytes are so from now on anew is noted in `fills` (log entry 28). -/
def Obligations.HashEncCompletes : Prop :=
  (∀ s : State, s.Ready → (100 < s.regs.hW.toNat ∨ 100 < s.regs.hH.toNat) →
    exec .hashEnc s = .next { s with regs := { s.regs with err := 0x00050104 }, phase := .fault }) ∧
  (∀ s : State, s.Ready → s.regs.hW.toNat ≤ 100 → s.regs.hH.toNat ≤ 100 →
    ¬(1 ≤ s.regs.hW.toNat ∧ 1 ≤ s.regs.hH.toNat ∧ s.regs.inOff.toNat ≤ s.regs.inLen.toNat ∧
      s.regs.inLen.toNat ≤ s.params.inMax ∧ s.regs.inLen.toNat - s.regs.inOff.toNat = 4 * s.regs.hW.toNat * s.regs.hH.toNat) →
    exec .hashEnc s = .next { s with regs := { s.regs with err := 0x00050307 }, phase := .fault }) ∧
  (∀ (s : State) (bytes : List Byte), s.Ready → 1 ≤ s.regs.hW.toNat → s.regs.hW.toNat ≤ 100 → 1 ≤ s.regs.hH.toNat →
    s.regs.hH.toNat ≤ 100 → s.regs.inOff.toNat ≤ s.regs.inLen.toNat → s.regs.inLen.toNat ≤ s.params.inMax →
    s.regs.inLen.toNat - s.regs.inOff.toNat = 4 * s.regs.hW.toNat * s.regs.hH.toNat →
    (s.params.numerics = .exactReals → bytes = hashEncode exactReals s.regs.hW.toNat s.regs.hH.toNat s.hashPixels) →
    (s.params.numerics = .other → bytes = hashEncode Config.numerics s.regs.hW.toNat s.regs.hH.toNat s.hashPixels) →
    ∃ t, exec .hashEnc s = .next t ∧ t.regs.outLen.toNat = bytes.length ∧
      (∀ k, k < bytes.length → t.byteAt .out k = bytes.getD k 0) ∧
      (∀ k, bytes.length ≤ k → t.byteAt .out k = s.byteAt .out k) ∧
      t = { s with
        regs := { s.regs with outLen := t.regs.outLen, outW := 0, outH := 0 }, buf := { s.buf with out := t.buf.out },
        valid := { s.valid with out := true }, phase := .done, pristine := false,
        fills := { s.fills with out := s.fills.out + 1 } })

/-- A hash that HASH_ENC makes, whatever the `NUMERICS` (for those other than the exact reals this rests on the model's choices that a
value out of its range stays within its field's width, log entry 27, and that the flags and grid counts are integer computations, log
entry 26), says the truth about its image in its header: `hasAlpha` is 1 exactly if some pixel is not opaque, the orientation flag
exactly if the image is wider than high, the grid is that of the aspect ratio, at least 1; and its length, 17 to 25 bytes, is the length
the header implies, so HASH_DEC accepts it. Over the exact reals the DC fields are the rounded means of the four channels of the image
composited over its average colour; the hash of the flat 4 by 4 image of R365, and those of the images of the vectors HASH-2 and HASH-3,
whose scales and AC terms are not 0 (30_encoding.md R117; 45_dct_hash.md R321 to R335, R341, R345, R349, R365). -/
def Obligations.EncodedHashIsDecodable : Prop :=
  (∀ (N : Type) (ns : NumberSystem N) (w h : Nat) (px : List Pixel) (bytes : List Byte) (hd : HashHeader),
    1 ≤ w → w ≤ 100 → 1 ≤ h → h ≤ 100 → px.length = w * h → bytes = hashEncode ns w h px → hd = headerOf bytes →
    (hd.hasAlpha = true ↔ ∃ p ∈ px, p.a.toNat < 255) ∧ (hd.isLandscape = true ↔ h < w) ∧
    hd.lx = max 1 ((2 * gridCap hd.hasAlpha * w + max w h) / (2 * max w h)) ∧
    hd.ly = max 1 ((2 * gridCap hd.hasAlpha * h + max w h) / (2 * max w h)) ∧
    hd.grid ≠ 0 ∧ bytes.length = hd.need ∧ 17 ≤ bytes.length ∧ bytes.length ≤ 25) ∧
  (∀ (w h : Nat) (px : List Pixel) (bytes : List Byte) (hd : HashHeader) (r g b : Pixel → Rat),
    1 ≤ w → w ≤ 100 → 1 ≤ h → h ≤ 100 → px.length = w * h → bytes = hashEncode exactReals w h px → hd = headerOf bytes →
    r = composited px Pixel.r → g = composited px Pixel.g → b = composited px Pixel.b →
    (hd.lDc : Int) = (63 * meanOf px (fun p => (r p + g p + b p) / 3) + 1 / 2).floor ∧
    (hd.pDc : Int) = (63 / 2 + 63 / 2 * meanOf px (fun p => (r p + g p) / 2 - b p) + 1 / 2).floor ∧
    (hd.qDc : Int) = (63 / 2 + 63 / 2 * meanOf px (fun p => r p - g p) + 1 / 2).floor ∧
    (hd.hasAlpha = true →
      ((bytes.getD 5 0).toNat % 16 : Int) = (15 * meanOf px (fun p => (p.a.toNat : Rat) / 255) + 1 / 2).floor)) ∧
  hashEncode exactReals 4 4 (List.replicate 16 ⟨0xC8, 0x64, 0x32, 0xFF⟩) =
    [0x1D, 0xCB, 0x02, 0x07, 0x00] ++ List.replicate 18 0x88 ++ [0x08] ∧
  hashEncode exactReals 1 1 [⟨0xFF, 0x80, 0x00, 0xFF⟩] =
    [0xE0, 0xFD, 0x42, 0x7F, 0x3F, 0x08, 0xF8, 0x08, 0x88, 0x88, 0x88, 0x80, 0x8F, 0x80, 0x88, 0xF8, 0x08, 0x88, 0x80, 0x80, 0x08,
     0x08, 0x88, 0x00] ∧
  hashEncode exactReals 2 2 [⟨0xFF, 0, 0, 0xFF⟩, ⟨0, 0xFF, 0, 0xFF⟩, ⟨0, 0, 0xFF, 0xFF⟩, ⟨0xFF, 0xFF, 0xFF, 0xFF⟩] =
    [0x20, 0x08, 0x42, 0xB7, 0x2C, 0x86, 0x09, 0x89, 0x96, 0x68, 0x69, 0x88, 0x88, 0x98, 0x86, 0x09, 0x89, 0x69, 0x48, 0xF8, 0x8A,
     0x8F, 0xD8, 0x08]

/-- HASH_DEC: the four admission checks in order; an accepted hash gives `OUT_W` by `OUT_H` pixels in `OUT`, the longer side 32, both 5
to 32, each the pixel of the reconstruction over the implementation's `NUMERICS`, and changes nothing else; where these are not the
exact reals, the reconstruction is the model's choice: a free number system (log entry 12), the order of evaluation, which departs from
the written one of R344 (26), and what an output byte out of range becomes (27). Over the exact reals a hash whose scales are 0 decodes
to one colour, computed from the DC fields; the hash of R366, and two pixels of the vector HASH-3's, whose scales are not 0
(40_commands.md R152; 45_dct_hash.md R340 to R346, R349, R350, R363, R366). That the buffer's unspecified bytes are so from now on anew
is noted in `fills` (log entry 28). -/
def Obligations.HashDecCompletes : Prop :=
  (∀ s : State, s.Ready →
    ∃ t, exec .hashDec s = .next t ∧
      (if ¬(s.regs.inOff.toNat ≤ s.regs.inLen.toNat ∧ s.regs.inLen.toNat ≤ s.params.inMax) then
        t = { s with regs := { s.regs with err := 0x00050307 }, phase := .fault }
      else if s.regs.inLen.toNat - s.regs.inOff.toNat < 5 then
        t = { s with regs := { s.regs with err := 0x00050106 }, phase := .fault }
      else if s.payloadByte 3 % 8 = 0 then t = { s with regs := { s.regs with err := 0x00050206 }, phase := .fault }
      else if s.regs.inLen.toNat - s.regs.inOff.toNat < s.header.need then
        t = { s with regs := { s.regs with err := 0x00050106 }, phase := .fault }
      else
        5 ≤ t.regs.outW.toNat ∧ 5 ≤ t.regs.outH.toNat ∧ max t.regs.outW.toNat t.regs.outH.toNat = 32 ∧
        (s.header.ly < s.header.lx → t.regs.outW.toNat = 32 ∧
          t.regs.outH.toNat = (64 * s.header.ly + s.header.lx) / (2 * s.header.lx)) ∧
        (s.header.lx ≤ s.header.ly → t.regs.outH.toNat = 32 ∧
          t.regs.outW.toNat = (64 * s.header.lx + s.header.ly) / (2 * s.header.ly)) ∧
        t.regs.outLen.toNat = 4 * t.regs.outW.toNat * t.regs.outH.toNat ∧
        (∀ x y, x < t.regs.outW.toNat → y < t.regs.outH.toNat →
          (s.params.numerics = .exactReals → t.pixelAt .out (4 * (y * t.regs.outW.toNat + x)) =
            decodePixel exactReals (spectraOf exactReals s.header s.hashBytes) t.regs.outW.toNat t.regs.outH.toNat x y) ∧
          (s.params.numerics = .other → t.pixelAt .out (4 * (y * t.regs.outW.toNat + x)) =
            decodePixel Config.numerics (spectraOf Config.numerics s.header s.hashBytes) t.regs.outW.toNat t.regs.outH.toNat x y)) ∧
        (∀ k, t.regs.outLen.toNat ≤ k → t.byteAt .out k = s.byteAt .out k) ∧
        t = { s with
          regs := { s.regs with outLen := t.regs.outLen, outW := t.regs.outW, outH := t.regs.outH },
          buf := { s.buf with out := t.buf.out }, valid := { s.valid with out := true }, phase := .done, pristine := false,
          fills := { s.fills with out := s.fills.out + 1 } })) ∧
  (∀ (hd : HashHeader) (bytes : List Byte) (w h x y : Nat) (l p q r g b a : Rat), 1 ≤ w → 1 ≤ h →
    hd.lScale = 0 → hd.pScale = 0 → hd.qScale = 0 → (hd.hasAlpha = true → (bytes.getD 5 0).toNat / 16 = 0) →
    l = (hd.lDc : Rat) / 63 → p = (hd.pDc : Rat) / (63 / 2) - 1 → q = (hd.qDc : Rat) / (63 / 2) - 1 →
    b = l - 2 / 3 * p → r = (3 * l - b + q) / 2 → g = r - q →
    a = (if hd.hasAlpha then (((bytes.getD 5 0).toNat % 16 : Nat) : Rat) / 15 else 1) →
    decodePixel exactReals (spectraOf exactReals hd bytes) w h x y =
      ⟨BitVec.ofInt 8 (255 * max 0 (min 1 r)).floor, BitVec.ofInt 8 (255 * max 0 (min 1 g)).floor,
       BitVec.ofInt 8 (255 * max 0 (min 1 b)).floor, BitVec.ofInt 8 (255 * max 0 (min 1 a)).floor⟩) ∧
  (∀ bytes : List Byte, bytes = [0x1D, 0xCB, 0x02, 0x07, 0x00] ++ List.replicate 18 0x88 ++ [0x08] → ∀ x y, x < 32 → y < 32 →
    decodePixel exactReals (spectraOf exactReals (headerOf bytes) bytes) 32 32 x y = ⟨0xC9, 0x64, 0x31, 0xFF⟩) ∧
  (∀ bytes : List Byte, bytes =
      [0x20, 0x08, 0x42, 0xB7, 0x2C, 0x86, 0x09, 0x89, 0x96, 0x68, 0x69, 0x88, 0x88, 0x98, 0x86, 0x09, 0x89, 0x69, 0x48, 0xF8, 0x8A,
       0x8F, 0xD8, 0x08] →
    decodePixel exactReals (spectraOf exactReals (headerOf bytes) bytes) 32 32 0 0 = ⟨0xC5, 0x00, 0x00, 0xFF⟩ ∧
    decodePixel exactReals (spectraOf exactReals (headerOf bytes) bytes) 32 32 31 0 = ⟨0x00, 0x62, 0x00, 0xFF⟩)

/-- The hash length a header implies, by `hasAlpha` and `GRID`, whatever the orientation (45_dct_hash.md R345). -/
def Obligations.HashLengthTable : Prop :=
  (∀ hd : HashHeader, hd.need = (if hd.hasAlpha then 6 else 5) + ((hd.nTotal + 1) / 2)) ∧
  (∀ hd : HashHeader, hd.nTotal = ((freqPairs (max 3 hd.lx) (max 3 hd.ly)).length - 1) + 5 + 5 + (if hd.hasAlpha then 14 else 0)) ∧
  (∀ hd : HashHeader, hd.hasAlpha = false →
    (hd.grid ∈ [1, 2, 3] → hd.need = 17) ∧ (hd.grid = 4 → hd.need = 19) ∧ (hd.grid = 5 → hd.need = 21) ∧
    (hd.grid = 6 → hd.need = 23) ∧ (hd.grid = 7 → hd.need = 24)) ∧
  (∀ hd : HashHeader, hd.hasAlpha = true →
    (hd.grid ∈ [1, 2, 3] → hd.need = 23) ∧ (hd.grid = 4 → hd.need = 25) ∧ (hd.grid = 5 → hd.need = 25) ∧
    (hd.grid = 6 → hd.need = 28) ∧ (hd.grid = 7 → hd.need = 29))

/-- The frequency pairs: exactly those under the triangular cutoff, `cy` outer and `cx` inner, both increasing, the first being (0, 0);
the AC list is the rest in the same order (45_dct_hash.md R327). -/
def Obligations.FrequencyPairOrder : Prop :=
  ∀ nx ny : Nat,
    (∀ cx cy, (cx, cy) ∈ freqPairs nx ny ↔ cy < ny ∧ cx < nx ∧ cx * ny < nx * (ny - cy)) ∧
    (freqPairs nx ny).Pairwise (fun p q => p.2 < q.2 ∨ (p.2 = q.2 ∧ p.1 < q.1)) ∧
    (1 ≤ nx → 1 ≤ ny → (freqPairs nx ny).head? = some (0, 0)) ∧ acPairs nx ny = (freqPairs nx ny).tail ∧
    freqPairs 3 3 = [(0, 0), (1, 0), (2, 0), (0, 1), (1, 1), (0, 2)] ∧
    freqPairs 5 5 = [(0, 0), (1, 0), (2, 0), (3, 0), (4, 0), (0, 1), (1, 1), (2, 1), (3, 1), (0, 2), (1, 2), (2, 2), (0, 3), (1, 3),
      (0, 4)] ∧
    freqPairs 7 3 = [(0, 0), (1, 0), (2, 0), (3, 0), (4, 0), (5, 0), (6, 0), (0, 1), (1, 1), (2, 1), (3, 1), (4, 1), (0, 2), (1, 2),
      (2, 2)] ∧
    freqPairs 5 3 = [(0, 0), (1, 0), (2, 0), (3, 0), (4, 0), (0, 1), (1, 1), (2, 1), (3, 1), (0, 2), (1, 2)]

/-! ### Pseudo-commands -/

/-- FRAME, DECODE_STILL and DECODE_ANIM put their sequence of host actions in front of the queue, in order, the rest of the sequence
being dropped after a command that ended in FAULT; nothing else changes (40_commands.md R146, R155, R156, R157; that a whole image
stops at its first fault is log entry 5). -/
def Obligations.PseudoCommandsExpand : Prop :=
  (∀ (a : FrameArgs) (s : State), exec (.frame a) s = .next { s with
    script := [waiting (.writeBuf .inp 0 a.payload), waiting (.writeReg 0x03 (BitVec.ofNat 32 a.payload.length)),
      waiting (.writeReg 0x04 a.off), waiting (.writeReg 0 2), waiting (.stopIfFault 10),
      waiting (.writeReg 0x10 a.rect.x), waiting (.writeReg 0x11 a.rect.y), waiting (.writeReg 0x12 a.rect.w),
      waiting (.writeReg 0x13 a.rect.h), waiting (.writeReg 0 3), waiting (.stopIfFault 4),
      waiting (.writeReg 0x14 a.ctl), waiting (.writeReg 0 5), waiting (.stopIfFault 1), waiting .readOut] ++ s.script }) ∧
  (∀ (a : StillArgs) (s : State), exec (.decodeStill a) s = .next { s with
    script := stoppingItems ([.writeReg 0x08 a.image.w, .writeReg 0x09 a.image.h, .writeReg 0x0A a.image.fmt,
      .writeReg 0x0B (BitVec.ofNat 32 a.image.palette.length), .writeReg 0x0C a.image.trCtl, .writeReg 0x0D a.image.key0,
      .writeReg 0x0E a.image.key1, .writeReg 0x0F a.image.key2,
      .writeBuf .pal 0 (a.image.palette.flatMap (fun c => [c.r, c.g, c.b])), .writeBuf .trns 0 a.image.trns, .writeReg 0 4] ++
      [.writeBuf .inp 0 a.payload, .writeReg 0x03 (BitVec.ofNat 32 a.payload.length), .writeReg 0x04 2, .writeReg 0 2,
       .writeReg 0x10 0, .writeReg 0x11 0, .writeReg 0x12 a.image.w, .writeReg 0x13 a.image.h, .writeReg 0 3,
       .writeReg 0x14 0, .writeReg 0 5, .readOut]) ++ s.script }) ∧
  (∀ (a : AnimArgs) (s : State), exec (.decodeAnim a) s = .next { s with
    script := stoppingItems ([.writeReg 0x08 a.image.w, .writeReg 0x09 a.image.h, .writeReg 0x0A a.image.fmt,
      .writeReg 0x0B (BitVec.ofNat 32 a.image.palette.length), .writeReg 0x0C a.image.trCtl, .writeReg 0x0D a.image.key0,
      .writeReg 0x0E a.image.key1, .writeReg 0x0F a.image.key2,
      .writeBuf .pal 0 (a.image.palette.flatMap (fun c => [c.r, c.g, c.b])), .writeBuf .trns 0 a.image.trns, .writeReg 0 4] ++
      (a.frames.map (fun f =>
        [.writeBuf .inp 0 f.payload, .writeReg 0x03 (BitVec.ofNat 32 f.payload.length), .writeReg 0x04 2, .writeReg 0 2,
         .writeReg 0x10 f.rect.x, .writeReg 0x11 f.rect.y, .writeReg 0x12 f.rect.w, .writeReg 0x13 f.rect.h, .writeReg 0 3,
         .writeReg 0x14 f.ctl, .writeReg 0 5, .readOut])).flatten) ++ s.script }) ∧
  stoppingItems [] = [] ∧
  (∀ (v : Word) (rest : List HostOp), stoppingItems (.writeReg 0 v :: rest) =
    waiting (.writeReg 0 v) :: waiting (.stopIfFault (stoppingItems rest).length) :: stoppingItems rest) ∧
  (∀ (op : HostOp) (rest : List HostOp), (∀ v, op ≠ .writeReg 0 v) → stoppingItems (op :: rest) = waiting op :: stoppingItems rest) ∧
  (∀ op : HostOp, waiting op = { early := false, op := op }) ∧
  (∀ (s : State) (n : Nat), s.phase = .fault → s.doStopIfFault n = { s with script := s.script.drop n }) ∧
  (∀ (s : State) (n : Nat), s.phase ≠ .fault → s.doStopIfFault n = s)

/-! ### Whole machine -/

/-- Every instruction answers a next state in every state (a fault of CORE is one, 60_exceptions.md R390; that this holds also where the
element is not the one awaited is the model's choice, log entry 13), and none changes what only the host may change: the `RW` registers,
`IN`, `PAL` and `TRNS` (10_state.md section 3, R33, R38; 20_memory.md R85). -/
def Obligations.OperandsAreHostOnly : Prop :=
  (∀ (i : Instr) (s : State), ∃ t, exec i s = .next t) ∧
  (∀ (i : Instr) (s t : State), exec i s = .next t → s.HostFrame t)

/-- Every step keeps every buffer in canonical form (log entry 7). -/
def Obligations.StepKeepsMemoryInv : Prop :=
  ∀ s t : State, s.MemoryInv → step s = .next t → t.MemoryInv

/-- Every step keeps `ERR = 0` outside FAULT, `SAVE_VALID = 0` outside a restorePrevious COMPOSE, legal modes inside COMPOSE, the flags
of a running command's destinations 0, and ends at the start of an element (10_state.md R34, R40, R42; 40_commands.md R143;
44_compositor.md R293; 60_exceptions.md R390; `IPOS` while INFLATE runs: log entry 19). -/
def Obligations.StepKeepsFlagInv : Prop :=
  ∀ s t : State, s.FlagInv → step s = .next t → t.FlagInv

/-- Every step keeps the table sizes, `RAW_LEN <= RAW_CAP <= RAW_MAX`, and, while INFLATE runs, `IPOS` inside the payload
(10_state.md R36, R39; 41_inflate.md R176, R199). -/
def Obligations.StepKeepsInflateInv : Prop :=
  ∀ s t : State, s.InflateInv → step s = .next t → t.InflateInv

/-- Every step keeps valid tiles and canvases of a legal size, RECON inside its pass list and COMPOSE's rectangle inside the canvas
(40_commands.md R148, R149, R150). -/
def Obligations.StepKeepsSizeInv : Prop :=
  ∀ s t : State, s.SizeInv → step s = .next t → t.SizeInv

/-- No step writes a byte at or beyond a buffer's capacity (20_memory.md R70, R71). -/
def Obligations.StepKeepsCapacityInv : Prop :=
  ∀ s t : State, s.Inv → step s = .next t → t.CapacityInv

/-- The reset state of every implementation meets every invariant (10_state.md R46). -/
def Obligations.ResetMeetsInvariants : Prop :=
  ∀ p : Params, p.Ok → (State.resetWith p).Inv

/-- A step never refuses, and stops only on a host access, outside BUSY, beyond a buffer's capacity: no reachable element of a stream
is without a meaning (30_encoding.md R118, R119; 20_memory.md R70, R82; log entries 13, 15). -/
def Obligations.StepNeverRefuses : Prop :=
  ∀ s : State, s.InflateInv →
    (∀ r, step s ≠ .refused r) ∧
    (∀ r, step s = .fault r → s.phase.isBusy = false ∧ ∃ item rest, s.script = item :: rest ∧
      ((∃ b i bytes, item.op = .writeBuf b i bytes ∧ s.params.capacity b.buf < i + bytes.length) ∨
        (∃ b i n, item.op = .readBuf b i n ∧ s.params.capacity b.buf < i + n) ∨
        (item.op = .readOut ∧ s.params.pixMax < (s.hostReadReg 0x17).1.toNat)))

/-- While INFLATE runs undisturbed, `IPOS` and `RAW_LEN` never go down, `IPOS` never passes the payload's end, and the bytes of `RAW` below
`RAW_LEN` never change (41_inflate.md R199 (b) and (c)). -/
def Obligations.InflateMovesForward : Prop :=
  ∀ s t : State, s.InflateInv → s.phase.isU1 = true → s.script = [] → step s = .next t →
    s.regs.ipos.toNat ≤ t.regs.ipos.toNat ∧ t.regs.ipos.toNat ≤ 8 * s.regs.inLen.toNat ∧
    s.regs.rawLen.toNat ≤ t.regs.rawLen.toNat ∧ (∀ k, k < s.regs.rawLen.toNat → t.byteAt .raw k = s.byteAt .raw k)
end

