-- ==== Sys2Proof/Laws/Huffman.lean ====
section
/-! SUPPORT. The symbol that `symbolOf` finds by position is the one 41_inflate.md R178 asks for. -/

namespace Sys2Proof.Machine

theorem symbols_getElem (len : Nat) : ∀ (t : List Nat) (off j s : Nat),
    ((((t.zipIdx off).filter (fun p => p.1 == len)).map (·.2))[j]? = some s) ↔
      (off ≤ s ∧ t[s - off]? = some len ∧ ((t.take (s - off)).filter (· == len)).length = j)
  | [], off, j, s => by simp
  | x :: t, off, j, s => by
    have ih := symbols_getElem len t (off + 1)
    rw [List.zipIdx_cons]
    by_cases hx : x = len
    · subst hx
      simp only [List.filter_cons, beq_self_eq_true, if_true, List.map_cons]
      cases j with
      | zero =>
        simp only [List.getElem?_cons_zero, Option.some.injEq]
        constructor
        · rintro rfl; simp
        · rintro ⟨h1, h2, h3⟩
          by_cases h : off = s
          · exact h
          · have : s - off = (s - off - 1) + 1 := by omega
            rw [this, List.take_succ_cons] at h3
            simp at h3
      | succ j =>
        rw [List.getElem?_cons_succ, ih j s]
        constructor
        · rintro ⟨h1, h2, h3⟩
          have e : s - off = (s - (off + 1)) + 1 := by omega
          refine ⟨by omega, ?_, ?_⟩
          · rw [e, List.getElem?_cons_succ]; exact h2
          · rw [e, List.take_succ_cons]; simp [h3]
        · rintro ⟨h1, h2, h3⟩
          have hne : s ≠ off := by rintro rfl; simp at h3
          have e : s - off = (s - (off + 1)) + 1 := by omega
          refine ⟨by omega, ?_, ?_⟩
          · rw [e, List.getElem?_cons_succ] at h2; exact h2
          · rw [e, List.take_succ_cons] at h3; simpa using h3
    · have hb : (x == len) = false := by simp [hx]
      simp only [List.filter_cons, hb, Bool.false_eq_true, if_false]
      rw [ih j s]
      constructor
      · rintro ⟨h1, h2, h3⟩
        have e : s - off = (s - (off + 1)) + 1 := by omega
        refine ⟨by omega, ?_, ?_⟩
        · rw [e, List.getElem?_cons_succ]; exact h2
        · rw [e, List.take_succ_cons]; simp [hb, h3]
      · rintro ⟨h1, h2, h3⟩
        have hne : s ≠ off := by rintro rfl; simp at h2; exact hx h2
        have e : s - off = (s - (off + 1)) + 1 := by omega
        refine ⟨by omega, ?_, ?_⟩
        · rw [e, List.getElem?_cons_succ] at h2; exact h2
        · rw [e, List.take_succ_cons] at h3; simpa [hb] using h3

end Sys2Proof.Machine

namespace Sys2Proof.Laws

open Sys2Proof.Machine

/-- `symbolOf t len code` is the symbol `s` with `T[s] == len` and `code(s) == code` (41_inflate.md R177, R178). -/
theorem symbolOf_eq_some (t : List Nat) (len code s : Nat) :
    symbolOf t len code = some s ↔ t[s]? = some len ∧ codeOf t s = code := by
  unfold symbolOf symbolsOfLength
  by_cases h : code < firstCode t len
  · rw [if_pos h]
    constructor
    · intro h2; simp at h2
    · rintro ⟨h1, h2⟩
      simp [codeOf, List.getD, h1] at h2
      omega
  · rw [if_neg h]
    have := symbols_getElem len t 0 (code - firstCode t len) s
    rw [this]
    simp only [Nat.sub_zero, Nat.zero_le, true_and]
    constructor
    · rintro ⟨h1, h2⟩
      refine ⟨h1, ?_⟩
      simp [codeOf, List.getD, h1, h2]; omega
    · rintro ⟨h1, h2⟩
      refine ⟨h1, ?_⟩
      simp [codeOf, List.getD, h1] at h2
      omega

end Sys2Proof.Laws
end

