-- ==== Sys2Proof/Laws/State.lean ====
section
/-! SUPPORT. For each named update of the state, what each field of the result is: true by unfolding, so that no proof unfolds a
record update. -/

namespace Sys2Proof.Machine

/-! ### `State.setValid` -/

@[simp] theorem setValid_params (s : State) (d : Dest) (b : Bool) :
    (s.setValid d b).params = s.params := rfl
@[simp] theorem setValid_regs (s : State) (d : Dest) (b : Bool) :
    (s.setValid d b).regs = s.regs := rfl
@[simp] theorem setValid_phase (s : State) (d : Dest) (b : Bool) :
    (s.setValid d b).phase = s.phase := rfl
@[simp] theorem setValid_valid (s : State) (d : Dest) (b : Bool) :
    (s.setValid d b).valid = s.valid.put d b := rfl
@[simp] theorem setValid_buf (s : State) (d : Dest) (b : Bool) :
    (s.setValid d b).buf = s.buf := rfl
@[simp] theorem setValid_u1 (s : State) (d : Dest) (b : Bool) :
    (s.setValid d b).u1 = s.u1 := rfl
@[simp] theorem setValid_u2 (s : State) (d : Dest) (b : Bool) :
    (s.setValid d b).u2 = s.u2 := rfl
@[simp] theorem setValid_script (s : State) (d : Dest) (b : Bool) :
    (s.setValid d b).script = s.script := rfl
@[simp] theorem setValid_hostLog (s : State) (d : Dest) (b : Bool) :
    (s.setValid d b).hostLog = s.hostLog := rfl
@[simp] theorem setValid_freeCtr (s : State) (d : Dest) (b : Bool) :
    (s.setValid d b).freeCtr = s.freeCtr := rfl
@[simp] theorem setValid_epoch (s : State) (d : Dest) (b : Bool) :
    (s.setValid d b).epoch = s.epoch := rfl
@[simp] theorem setValid_pristine (s : State) (d : Dest) (b : Bool) :
    (s.setValid d b).pristine = s.pristine := rfl
@[simp] theorem setValid_fills (s : State) (d : Dest) (b : Bool) :
    (s.setValid d b).fills = s.fills := rfl
@[simp] theorem setValid_iposKnown (s : State) (d : Dest) (b : Bool) :
    (s.setValid d b).iposKnown = s.iposKnown := rfl

/-! ### `State.setPhase` -/

@[simp] theorem setPhase_params (s : State) (p : Phase) :
    (s.setPhase p).params = s.params := rfl
@[simp] theorem setPhase_regs (s : State) (p : Phase) :
    (s.setPhase p).regs = s.regs := rfl
@[simp] theorem setPhase_phase (s : State) (p : Phase) :
    (s.setPhase p).phase = p := rfl
@[simp] theorem setPhase_valid (s : State) (p : Phase) :
    (s.setPhase p).valid = s.valid := rfl
@[simp] theorem setPhase_buf (s : State) (p : Phase) :
    (s.setPhase p).buf = s.buf := rfl
@[simp] theorem setPhase_u1 (s : State) (p : Phase) :
    (s.setPhase p).u1 = s.u1 := rfl
@[simp] theorem setPhase_u2 (s : State) (p : Phase) :
    (s.setPhase p).u2 = s.u2 := rfl
@[simp] theorem setPhase_script (s : State) (p : Phase) :
    (s.setPhase p).script = s.script := rfl
@[simp] theorem setPhase_hostLog (s : State) (p : Phase) :
    (s.setPhase p).hostLog = s.hostLog := rfl
@[simp] theorem setPhase_freeCtr (s : State) (p : Phase) :
    (s.setPhase p).freeCtr = s.freeCtr := rfl
@[simp] theorem setPhase_epoch (s : State) (p : Phase) :
    (s.setPhase p).epoch = s.epoch := rfl
@[simp] theorem setPhase_pristine (s : State) (p : Phase) :
    (s.setPhase p).pristine = s.pristine := rfl
@[simp] theorem setPhase_fills (s : State) (p : Phase) :
    (s.setPhase p).fills = s.fills := rfl
@[simp] theorem setPhase_iposKnown (s : State) (p : Phase) :
    (s.setPhase p).iposKnown = s.iposKnown := rfl

/-! ### `State.openDest` -/

@[simp] theorem openDest_params (s : State) (d : Dest) :
    (s.openDest d).params = s.params := rfl
@[simp] theorem openDest_regs (s : State) (d : Dest) :
    (s.openDest d).regs = s.regs := rfl
@[simp] theorem openDest_phase (s : State) (d : Dest) :
    (s.openDest d).phase = s.phase := rfl
@[simp] theorem openDest_valid (s : State) (d : Dest) :
    (s.openDest d).valid = s.valid.put d false := rfl
@[simp] theorem openDest_buf (s : State) (d : Dest) :
    (s.openDest d).buf = s.buf := rfl
@[simp] theorem openDest_u1 (s : State) (d : Dest) :
    (s.openDest d).u1 = s.u1 := rfl
@[simp] theorem openDest_u2 (s : State) (d : Dest) :
    (s.openDest d).u2 = s.u2 := rfl
@[simp] theorem openDest_script (s : State) (d : Dest) :
    (s.openDest d).script = s.script := rfl
@[simp] theorem openDest_hostLog (s : State) (d : Dest) :
    (s.openDest d).hostLog = s.hostLog := rfl
@[simp] theorem openDest_freeCtr (s : State) (d : Dest) :
    (s.openDest d).freeCtr = s.freeCtr := rfl
@[simp] theorem openDest_epoch (s : State) (d : Dest) :
    (s.openDest d).epoch = s.epoch := rfl
@[simp] theorem openDest_pristine (s : State) (d : Dest) :
    (s.openDest d).pristine = false := rfl
@[simp] theorem openDest_fills (s : State) (d : Dest) :
    (s.openDest d).fills = s.fills.bump d := rfl
@[simp] theorem openDest_iposKnown (s : State) (d : Dest) :
    (s.openDest d).iposKnown = s.iposKnown := rfl

/-! ### `State.complete` -/

@[simp] theorem complete_params (s : State) (d : Dest) :
    (s.complete d).params = s.params := rfl
@[simp] theorem complete_regs (s : State) (d : Dest) :
    (s.complete d).regs = s.regs := rfl
@[simp] theorem complete_phase (s : State) (d : Dest) :
    (s.complete d).phase = .done := rfl
@[simp] theorem complete_valid (s : State) (d : Dest) :
    (s.complete d).valid = s.valid.put d true := rfl
@[simp] theorem complete_buf (s : State) (d : Dest) :
    (s.complete d).buf = s.buf := rfl
@[simp] theorem complete_u1 (s : State) (d : Dest) :
    (s.complete d).u1 = s.u1 := rfl
@[simp] theorem complete_u2 (s : State) (d : Dest) :
    (s.complete d).u2 = s.u2 := rfl
@[simp] theorem complete_script (s : State) (d : Dest) :
    (s.complete d).script = s.script := rfl
@[simp] theorem complete_hostLog (s : State) (d : Dest) :
    (s.complete d).hostLog = s.hostLog := rfl
@[simp] theorem complete_freeCtr (s : State) (d : Dest) :
    (s.complete d).freeCtr = s.freeCtr := rfl
@[simp] theorem complete_epoch (s : State) (d : Dest) :
    (s.complete d).epoch = s.epoch := rfl
@[simp] theorem complete_pristine (s : State) (d : Dest) :
    (s.complete d).pristine = s.pristine := rfl
@[simp] theorem complete_fills (s : State) (d : Dest) :
    (s.complete d).fills = s.fills := rfl
@[simp] theorem complete_iposKnown (s : State) (d : Dest) :
    (s.complete d).iposKnown = s.iposKnown := rfl

/-! ### `State.raise` -/

@[simp] theorem raise_params (s : State) (f : FaultCode) (u : UnitId) :
    (s.raise f u).params = s.params := rfl
@[simp] theorem raise_regs (s : State) (f : FaultCode) (u : UnitId) :
    (s.raise f u).regs = { s.regs with err := errWord f u } := rfl
@[simp] theorem raise_phase (s : State) (f : FaultCode) (u : UnitId) :
    (s.raise f u).phase = .fault := rfl
@[simp] theorem raise_valid (s : State) (f : FaultCode) (u : UnitId) :
    (s.raise f u).valid = s.valid := rfl
@[simp] theorem raise_buf (s : State) (f : FaultCode) (u : UnitId) :
    (s.raise f u).buf = s.buf := rfl
@[simp] theorem raise_u1 (s : State) (f : FaultCode) (u : UnitId) :
    (s.raise f u).u1 = s.u1 := rfl
@[simp] theorem raise_u2 (s : State) (f : FaultCode) (u : UnitId) :
    (s.raise f u).u2 = s.u2 := rfl
@[simp] theorem raise_script (s : State) (f : FaultCode) (u : UnitId) :
    (s.raise f u).script = s.script := rfl
@[simp] theorem raise_hostLog (s : State) (f : FaultCode) (u : UnitId) :
    (s.raise f u).hostLog = s.hostLog := rfl
@[simp] theorem raise_freeCtr (s : State) (f : FaultCode) (u : UnitId) :
    (s.raise f u).freeCtr = s.freeCtr := rfl
@[simp] theorem raise_epoch (s : State) (f : FaultCode) (u : UnitId) :
    (s.raise f u).epoch = s.epoch := rfl
@[simp] theorem raise_pristine (s : State) (f : FaultCode) (u : UnitId) :
    (s.raise f u).pristine = s.pristine := rfl
@[simp] theorem raise_fills (s : State) (f : FaultCode) (u : UnitId) :
    (s.raise f u).fills = s.fills := rfl
@[simp] theorem raise_iposKnown (s : State) (f : FaultCode) (u : UnitId) :
    (s.raise f u).iposKnown = s.iposKnown := rfl

/-! ### `State.clear` -/

@[simp] theorem clear_params (s : State) :
    (s.clear).params = s.params := rfl
@[simp] theorem clear_regs (s : State) :
    (s.clear).regs = { s.regs with err := 0 } := rfl
@[simp] theorem clear_phase (s : State) :
    (s.clear).phase = .idle := rfl
@[simp] theorem clear_valid (s : State) :
    (s.clear).valid = ValidFlags.none := rfl
@[simp] theorem clear_buf (s : State) :
    (s.clear).buf = s.buf := rfl
@[simp] theorem clear_u1 (s : State) :
    (s.clear).u1 = s.u1 := rfl
@[simp] theorem clear_u2 (s : State) :
    (s.clear).u2 = s.u2 := rfl
@[simp] theorem clear_script (s : State) :
    (s.clear).script = s.script := rfl
@[simp] theorem clear_hostLog (s : State) :
    (s.clear).hostLog = s.hostLog := rfl
@[simp] theorem clear_freeCtr (s : State) :
    (s.clear).freeCtr = s.freeCtr := rfl
@[simp] theorem clear_epoch (s : State) :
    (s.clear).epoch = s.epoch := rfl
@[simp] theorem clear_pristine (s : State) :
    (s.clear).pristine = false := rfl
@[simp] theorem clear_fills (s : State) :
    (s.clear).fills = s.fills := rfl
@[simp] theorem clear_iposKnown (s : State) :
    (s.clear).iposKnown = s.iposKnown := rfl

/-! ### `State.writeBytes` -/

@[simp] theorem writeBytes_params (s : State) (k : Buf) (i : Nat) (bs : List Byte) :
    (s.writeBytes k i bs).params = s.params := rfl
@[simp] theorem writeBytes_regs (s : State) (k : Buf) (i : Nat) (bs : List Byte) :
    (s.writeBytes k i bs).regs = s.regs := rfl
@[simp] theorem writeBytes_phase (s : State) (k : Buf) (i : Nat) (bs : List Byte) :
    (s.writeBytes k i bs).phase = s.phase := rfl
@[simp] theorem writeBytes_valid (s : State) (k : Buf) (i : Nat) (bs : List Byte) :
    (s.writeBytes k i bs).valid = s.valid := rfl
@[simp] theorem writeBytes_buf (s : State) (k : Buf) (i : Nat) (bs : List Byte) :
    (s.writeBytes k i bs).buf = s.buf.put k (Memory.write (s.buf.get k) i bs) := rfl
@[simp] theorem writeBytes_u1 (s : State) (k : Buf) (i : Nat) (bs : List Byte) :
    (s.writeBytes k i bs).u1 = s.u1 := rfl
@[simp] theorem writeBytes_u2 (s : State) (k : Buf) (i : Nat) (bs : List Byte) :
    (s.writeBytes k i bs).u2 = s.u2 := rfl
@[simp] theorem writeBytes_script (s : State) (k : Buf) (i : Nat) (bs : List Byte) :
    (s.writeBytes k i bs).script = s.script := rfl
@[simp] theorem writeBytes_hostLog (s : State) (k : Buf) (i : Nat) (bs : List Byte) :
    (s.writeBytes k i bs).hostLog = s.hostLog := rfl
@[simp] theorem writeBytes_freeCtr (s : State) (k : Buf) (i : Nat) (bs : List Byte) :
    (s.writeBytes k i bs).freeCtr = s.freeCtr := rfl
@[simp] theorem writeBytes_epoch (s : State) (k : Buf) (i : Nat) (bs : List Byte) :
    (s.writeBytes k i bs).epoch = s.epoch := rfl
@[simp] theorem writeBytes_pristine (s : State) (k : Buf) (i : Nat) (bs : List Byte) :
    (s.writeBytes k i bs).pristine = s.pristine := rfl
@[simp] theorem writeBytes_fills (s : State) (k : Buf) (i : Nat) (bs : List Byte) :
    (s.writeBytes k i bs).fills = s.fills := rfl
@[simp] theorem writeBytes_iposKnown (s : State) (k : Buf) (i : Nat) (bs : List Byte) :
    (s.writeBytes k i bs).iposKnown = s.iposKnown := rfl

/-! ### `State.align` -/

@[simp] theorem align_params (s : State) :
    (s.align).params = s.params := rfl
@[simp] theorem align_regs (s : State) :
    (s.align).regs = { s.regs with ipos := reg (8 * ((s.regs.ipos.toNat + 7) / 8)) } := rfl
@[simp] theorem align_phase (s : State) :
    (s.align).phase = s.phase := rfl
@[simp] theorem align_valid (s : State) :
    (s.align).valid = s.valid := rfl
@[simp] theorem align_buf (s : State) :
    (s.align).buf = s.buf := rfl
@[simp] theorem align_u1 (s : State) :
    (s.align).u1 = s.u1 := rfl
@[simp] theorem align_u2 (s : State) :
    (s.align).u2 = s.u2 := rfl
@[simp] theorem align_script (s : State) :
    (s.align).script = s.script := rfl
@[simp] theorem align_hostLog (s : State) :
    (s.align).hostLog = s.hostLog := rfl
@[simp] theorem align_freeCtr (s : State) :
    (s.align).freeCtr = s.freeCtr := rfl
@[simp] theorem align_epoch (s : State) :
    (s.align).epoch = s.epoch := rfl
@[simp] theorem align_pristine (s : State) :
    (s.align).pristine = s.pristine := rfl
@[simp] theorem align_fills (s : State) :
    (s.align).fills = s.fills := rfl
@[simp] theorem align_iposKnown (s : State) :
    (s.align).iposKnown = s.iposKnown := rfl

/-! ### `State.appendRaw` -/

@[simp] theorem appendRaw_params (s : State) (b : Byte) :
    (s.appendRaw b).params = s.params := rfl
@[simp] theorem appendRaw_regs (s : State) (b : Byte) :
    (s.appendRaw b).regs = { s.regs with rawLen := reg (s.regs.rawLen.toNat + 1) } := rfl
@[simp] theorem appendRaw_phase (s : State) (b : Byte) :
    (s.appendRaw b).phase = s.phase := rfl
@[simp] theorem appendRaw_valid (s : State) (b : Byte) :
    (s.appendRaw b).valid = s.valid := rfl
@[simp] theorem appendRaw_buf (s : State) (b : Byte) :
    (s.appendRaw b).buf = { s.buf with raw := Memory.write s.buf.raw s.regs.rawLen.toNat [b] } := rfl
@[simp] theorem appendRaw_u1 (s : State) (b : Byte) :
    (s.appendRaw b).u1 = s.u1 := rfl
@[simp] theorem appendRaw_u2 (s : State) (b : Byte) :
    (s.appendRaw b).u2 = s.u2 := rfl
@[simp] theorem appendRaw_script (s : State) (b : Byte) :
    (s.appendRaw b).script = s.script := rfl
@[simp] theorem appendRaw_hostLog (s : State) (b : Byte) :
    (s.appendRaw b).hostLog = s.hostLog := rfl
@[simp] theorem appendRaw_freeCtr (s : State) (b : Byte) :
    (s.appendRaw b).freeCtr = s.freeCtr := rfl
@[simp] theorem appendRaw_epoch (s : State) (b : Byte) :
    (s.appendRaw b).epoch = s.epoch := rfl
@[simp] theorem appendRaw_pristine (s : State) (b : Byte) :
    (s.appendRaw b).pristine = s.pristine := rfl
@[simp] theorem appendRaw_fills (s : State) (b : Byte) :
    (s.appendRaw b).fills = s.fills := rfl
@[simp] theorem appendRaw_iposKnown (s : State) (b : Byte) :
    (s.appendRaw b).iposKnown = s.iposKnown := rfl

/-! ### `State.await` -/

@[simp] theorem await_params (s : State) (a : Await) :
    (s.await a).params = s.params := rfl
@[simp] theorem await_regs (s : State) (a : Await) :
    (s.await a).regs = s.regs := rfl
@[simp] theorem await_phase (s : State) (a : Await) :
    (s.await a).phase = .busy a := rfl
@[simp] theorem await_valid (s : State) (a : Await) :
    (s.await a).valid = s.valid := rfl
@[simp] theorem await_buf (s : State) (a : Await) :
    (s.await a).buf = s.buf := rfl
@[simp] theorem await_u1 (s : State) (a : Await) :
    (s.await a).u1 = s.u1 := rfl
@[simp] theorem await_u2 (s : State) (a : Await) :
    (s.await a).u2 = s.u2 := rfl
@[simp] theorem await_script (s : State) (a : Await) :
    (s.await a).script = s.script := rfl
@[simp] theorem await_hostLog (s : State) (a : Await) :
    (s.await a).hostLog = s.hostLog := rfl
@[simp] theorem await_freeCtr (s : State) (a : Await) :
    (s.await a).freeCtr = s.freeCtr := rfl
@[simp] theorem await_epoch (s : State) (a : Await) :
    (s.await a).epoch = s.epoch := rfl
@[simp] theorem await_pristine (s : State) (a : Await) :
    (s.await a).pristine = s.pristine := rfl
@[simp] theorem await_fills (s : State) (a : Await) :
    (s.await a).fills = s.fills := rfl
@[simp] theorem await_iposKnown (s : State) (a : Await) :
    (s.await a).iposKnown = s.iposKnown := rfl

/-! ### `State.startInflate` -/

@[simp] theorem startInflate_params (s : State) :
    (s.startInflate).params = s.params := rfl
@[simp] theorem startInflate_regs (s : State) :
    (s.startInflate).regs = { s.regs with ipos := reg (8 * s.regs.inOff.toNat), rawLen := 0, rawCap := reg s.params.rawInitCap } := rfl
@[simp] theorem startInflate_phase (s : State) :
    (s.startInflate).phase = s.phase := rfl
@[simp] theorem startInflate_valid (s : State) :
    (s.startInflate).valid = s.valid := rfl
@[simp] theorem startInflate_buf (s : State) :
    (s.startInflate).buf = s.buf := rfl
@[simp] theorem startInflate_u1 (s : State) :
    (s.startInflate).u1 = s.u1 := rfl
@[simp] theorem startInflate_u2 (s : State) :
    (s.startInflate).u2 = s.u2 := rfl
@[simp] theorem startInflate_script (s : State) :
    (s.startInflate).script = s.script := rfl
@[simp] theorem startInflate_hostLog (s : State) :
    (s.startInflate).hostLog = s.hostLog := rfl
@[simp] theorem startInflate_freeCtr (s : State) :
    (s.startInflate).freeCtr = s.freeCtr := rfl
@[simp] theorem startInflate_epoch (s : State) :
    (s.startInflate).epoch = s.epoch := rfl
@[simp] theorem startInflate_pristine (s : State) :
    (s.startInflate).pristine = s.pristine := rfl
@[simp] theorem startInflate_fills (s : State) :
    (s.startInflate).fills = s.fills := rfl
@[simp] theorem startInflate_iposKnown (s : State) :
    (s.startInflate).iposKnown = false := rfl

/-! ### `State.endInflate` -/

@[simp] theorem endInflate_params (s : State) :
    (s.endInflate).params = s.params := rfl
@[simp] theorem endInflate_regs (s : State) :
    (s.endInflate).regs = s.regs := rfl
@[simp] theorem endInflate_phase (s : State) :
    (s.endInflate).phase = .done := rfl
@[simp] theorem endInflate_valid (s : State) :
    (s.endInflate).valid = s.valid.put .raw true := rfl
@[simp] theorem endInflate_buf (s : State) :
    (s.endInflate).buf = s.buf := rfl
@[simp] theorem endInflate_u1 (s : State) :
    (s.endInflate).u1 = s.u1 := rfl
@[simp] theorem endInflate_u2 (s : State) :
    (s.endInflate).u2 = s.u2 := rfl
@[simp] theorem endInflate_script (s : State) :
    (s.endInflate).script = s.script := rfl
@[simp] theorem endInflate_hostLog (s : State) :
    (s.endInflate).hostLog = s.hostLog := rfl
@[simp] theorem endInflate_freeCtr (s : State) :
    (s.endInflate).freeCtr = s.freeCtr := rfl
@[simp] theorem endInflate_epoch (s : State) :
    (s.endInflate).epoch = s.epoch := rfl
@[simp] theorem endInflate_pristine (s : State) :
    (s.endInflate).pristine = s.pristine := rfl
@[simp] theorem endInflate_fills (s : State) :
    (s.endInflate).fills = s.fills := rfl
@[simp] theorem endInflate_iposKnown (s : State) :
    (s.endInflate).iposKnown = true := rfl

/-! ### `State.takeLine` -/

@[simp] theorem takeLine_params (s : State) (ft : Filter) :
    (s.takeLine ft).params = s.params := rfl
@[simp] theorem takeLine_regs (s : State) (ft : Filter) :
    (s.takeLine ft).regs = s.regs := rfl
@[simp] theorem takeLine_phase (s : State) (ft : Filter) :
    (s.takeLine ft).phase = s.phase := rfl
@[simp] theorem takeLine_valid (s : State) (ft : Filter) :
    (s.takeLine ft).valid = s.valid := rfl
@[simp] theorem takeLine_buf (s : State) (ft : Filter) :
    (s.takeLine ft).buf = s.buf := rfl
@[simp] theorem takeLine_u1 (s : State) (ft : Filter) :
    (s.takeLine ft).u1 = s.u1 := rfl
@[simp] theorem takeLine_u2 (s : State) (ft : Filter) :
    (s.takeLine ft).u2 = { s.u2 with pos := s.u2.pos + (1 + s.rowbytes s.currentPass.pw), cur := s.lineOut ft } := rfl
@[simp] theorem takeLine_script (s : State) (ft : Filter) :
    (s.takeLine ft).script = s.script := rfl
@[simp] theorem takeLine_hostLog (s : State) (ft : Filter) :
    (s.takeLine ft).hostLog = s.hostLog := rfl
@[simp] theorem takeLine_freeCtr (s : State) (ft : Filter) :
    (s.takeLine ft).freeCtr = s.freeCtr := rfl
@[simp] theorem takeLine_epoch (s : State) (ft : Filter) :
    (s.takeLine ft).epoch = s.epoch := rfl
@[simp] theorem takeLine_pristine (s : State) (ft : Filter) :
    (s.takeLine ft).pristine = s.pristine := rfl
@[simp] theorem takeLine_fills (s : State) (ft : Filter) :
    (s.takeLine ft).fills = s.fills := rfl
@[simp] theorem takeLine_iposKnown (s : State) (ft : Filter) :
    (s.takeLine ft).iposKnown = s.iposKnown := rfl

/-! ### `State.startPass` -/

@[simp] theorem startPass_params (s : State) (i pos : Nat) :
    (s.startPass i pos).params = s.params := rfl
@[simp] theorem startPass_regs (s : State) (i pos : Nat) :
    (s.startPass i pos).regs = s.regs := rfl
@[simp] theorem startPass_phase (s : State) (i pos : Nat) :
    (s.startPass i pos).phase = s.phase := rfl
@[simp] theorem startPass_valid (s : State) (i pos : Nat) :
    (s.startPass i pos).valid = s.valid := rfl
@[simp] theorem startPass_buf (s : State) (i pos : Nat) :
    (s.startPass i pos).buf = s.buf := rfl
@[simp] theorem startPass_u1 (s : State) (i pos : Nat) :
    (s.startPass i pos).u1 = s.u1 := rfl
@[simp] theorem startPass_script (s : State) (i pos : Nat) :
    (s.startPass i pos).script = s.script := rfl
@[simp] theorem startPass_hostLog (s : State) (i pos : Nat) :
    (s.startPass i pos).hostLog = s.hostLog := rfl
@[simp] theorem startPass_freeCtr (s : State) (i pos : Nat) :
    (s.startPass i pos).freeCtr = s.freeCtr := rfl
@[simp] theorem startPass_epoch (s : State) (i pos : Nat) :
    (s.startPass i pos).epoch = s.epoch := rfl
@[simp] theorem startPass_pristine (s : State) (i pos : Nat) :
    (s.startPass i pos).pristine = s.pristine := rfl
@[simp] theorem startPass_fills (s : State) (i pos : Nat) :
    (s.startPass i pos).fills = s.fills := rfl
@[simp] theorem startPass_iposKnown (s : State) (i pos : Nat) :
    (s.startPass i pos).iposKnown = s.iposKnown := rfl

/-! ### `State.copyBuf` -/

@[simp] theorem copyBuf_params (s : State) (a b : Buf) (n : Nat) :
    (s.copyBuf a b n).params = s.params := rfl
@[simp] theorem copyBuf_regs (s : State) (a b : Buf) (n : Nat) :
    (s.copyBuf a b n).regs = s.regs := rfl
@[simp] theorem copyBuf_phase (s : State) (a b : Buf) (n : Nat) :
    (s.copyBuf a b n).phase = s.phase := rfl
@[simp] theorem copyBuf_valid (s : State) (a b : Buf) (n : Nat) :
    (s.copyBuf a b n).valid = s.valid := rfl
@[simp] theorem copyBuf_buf (s : State) (a b : Buf) (n : Nat) :
    (s.copyBuf a b n).buf = s.buf.put b (Memory.write (s.buf.get b) 0 (s.bytesAt a 0 n)) := rfl
@[simp] theorem copyBuf_u1 (s : State) (a b : Buf) (n : Nat) :
    (s.copyBuf a b n).u1 = s.u1 := rfl
@[simp] theorem copyBuf_u2 (s : State) (a b : Buf) (n : Nat) :
    (s.copyBuf a b n).u2 = s.u2 := rfl
@[simp] theorem copyBuf_script (s : State) (a b : Buf) (n : Nat) :
    (s.copyBuf a b n).script = s.script := rfl
@[simp] theorem copyBuf_hostLog (s : State) (a b : Buf) (n : Nat) :
    (s.copyBuf a b n).hostLog = s.hostLog := rfl
@[simp] theorem copyBuf_freeCtr (s : State) (a b : Buf) (n : Nat) :
    (s.copyBuf a b n).freeCtr = s.freeCtr := rfl
@[simp] theorem copyBuf_epoch (s : State) (a b : Buf) (n : Nat) :
    (s.copyBuf a b n).epoch = s.epoch := rfl
@[simp] theorem copyBuf_pristine (s : State) (a b : Buf) (n : Nat) :
    (s.copyBuf a b n).pristine = s.pristine := rfl
@[simp] theorem copyBuf_fills (s : State) (a b : Buf) (n : Nat) :
    (s.copyBuf a b n).fills = s.fills := rfl
@[simp] theorem copyBuf_iposKnown (s : State) (a b : Buf) (n : Nat) :
    (s.copyBuf a b n).iposKnown = s.iposKnown := rfl

/-! ### `State.putOut` -/

@[simp] theorem putOut_params (s : State) (bs : List Byte) (w h : Nat) :
    (s.putOut bs w h).params = s.params := rfl
@[simp] theorem putOut_regs (s : State) (bs : List Byte) (w h : Nat) :
    (s.putOut bs w h).regs = { s.regs with outLen := reg bs.length, outW := reg w, outH := reg h } := rfl
@[simp] theorem putOut_phase (s : State) (bs : List Byte) (w h : Nat) :
    (s.putOut bs w h).phase = s.phase := rfl
@[simp] theorem putOut_valid (s : State) (bs : List Byte) (w h : Nat) :
    (s.putOut bs w h).valid = s.valid := rfl
@[simp] theorem putOut_buf (s : State) (bs : List Byte) (w h : Nat) :
    (s.putOut bs w h).buf = { s.buf with out := Memory.write s.buf.out 0 bs } := rfl
@[simp] theorem putOut_u1 (s : State) (bs : List Byte) (w h : Nat) :
    (s.putOut bs w h).u1 = s.u1 := rfl
@[simp] theorem putOut_u2 (s : State) (bs : List Byte) (w h : Nat) :
    (s.putOut bs w h).u2 = s.u2 := rfl
@[simp] theorem putOut_script (s : State) (bs : List Byte) (w h : Nat) :
    (s.putOut bs w h).script = s.script := rfl
@[simp] theorem putOut_hostLog (s : State) (bs : List Byte) (w h : Nat) :
    (s.putOut bs w h).hostLog = s.hostLog := rfl
@[simp] theorem putOut_freeCtr (s : State) (bs : List Byte) (w h : Nat) :
    (s.putOut bs w h).freeCtr = s.freeCtr := rfl
@[simp] theorem putOut_epoch (s : State) (bs : List Byte) (w h : Nat) :
    (s.putOut bs w h).epoch = s.epoch := rfl
@[simp] theorem putOut_pristine (s : State) (bs : List Byte) (w h : Nat) :
    (s.putOut bs w h).pristine = s.pristine := rfl
@[simp] theorem putOut_fills (s : State) (bs : List Byte) (w h : Nat) :
    (s.putOut bs w h).fills = s.fills := rfl
@[simp] theorem putOut_iposKnown (s : State) (bs : List Byte) (w h : Nat) :
    (s.putOut bs w h).iposKnown = s.iposKnown := rfl

/-! ### `State.putRes` -/

@[simp] theorem putRes_params (s : State) (a b c d : Nat) :
    (s.putRes a b c d).params = s.params := rfl
@[simp] theorem putRes_regs (s : State) (a b c d : Nat) :
    (s.putRes a b c d).regs = { s.regs with res0 := reg a, res1 := reg b, res2 := reg c, res3 := reg d } := rfl
@[simp] theorem putRes_phase (s : State) (a b c d : Nat) :
    (s.putRes a b c d).phase = s.phase := rfl
@[simp] theorem putRes_valid (s : State) (a b c d : Nat) :
    (s.putRes a b c d).valid = s.valid := rfl
@[simp] theorem putRes_buf (s : State) (a b c d : Nat) :
    (s.putRes a b c d).buf = s.buf := rfl
@[simp] theorem putRes_u1 (s : State) (a b c d : Nat) :
    (s.putRes a b c d).u1 = s.u1 := rfl
@[simp] theorem putRes_u2 (s : State) (a b c d : Nat) :
    (s.putRes a b c d).u2 = s.u2 := rfl
@[simp] theorem putRes_script (s : State) (a b c d : Nat) :
    (s.putRes a b c d).script = s.script := rfl
@[simp] theorem putRes_hostLog (s : State) (a b c d : Nat) :
    (s.putRes a b c d).hostLog = s.hostLog := rfl
@[simp] theorem putRes_freeCtr (s : State) (a b c d : Nat) :
    (s.putRes a b c d).freeCtr = s.freeCtr := rfl
@[simp] theorem putRes_epoch (s : State) (a b c d : Nat) :
    (s.putRes a b c d).epoch = s.epoch := rfl
@[simp] theorem putRes_pristine (s : State) (a b c d : Nat) :
    (s.putRes a b c d).pristine = s.pristine := rfl
@[simp] theorem putRes_fills (s : State) (a b c d : Nat) :
    (s.putRes a b c d).fills = s.fills := rfl
@[simp] theorem putRes_iposKnown (s : State) (a b c d : Nat) :
    (s.putRes a b c d).iposKnown = s.iposKnown := rfl

/-! ### `State.expand` -/

@[simp] theorem expand_params (s : State) (ops : List HostOp) :
    (s.expand ops).params = s.params := rfl
@[simp] theorem expand_regs (s : State) (ops : List HostOp) :
    (s.expand ops).regs = s.regs := rfl
@[simp] theorem expand_phase (s : State) (ops : List HostOp) :
    (s.expand ops).phase = s.phase := rfl
@[simp] theorem expand_valid (s : State) (ops : List HostOp) :
    (s.expand ops).valid = s.valid := rfl
@[simp] theorem expand_buf (s : State) (ops : List HostOp) :
    (s.expand ops).buf = s.buf := rfl
@[simp] theorem expand_u1 (s : State) (ops : List HostOp) :
    (s.expand ops).u1 = s.u1 := rfl
@[simp] theorem expand_u2 (s : State) (ops : List HostOp) :
    (s.expand ops).u2 = s.u2 := rfl
@[simp] theorem expand_script (s : State) (ops : List HostOp) :
    (s.expand ops).script = stoppingItems ops ++ s.script := rfl
@[simp] theorem expand_hostLog (s : State) (ops : List HostOp) :
    (s.expand ops).hostLog = s.hostLog := rfl
@[simp] theorem expand_freeCtr (s : State) (ops : List HostOp) :
    (s.expand ops).freeCtr = s.freeCtr := rfl
@[simp] theorem expand_epoch (s : State) (ops : List HostOp) :
    (s.expand ops).epoch = s.epoch := rfl
@[simp] theorem expand_pristine (s : State) (ops : List HostOp) :
    (s.expand ops).pristine = s.pristine := rfl
@[simp] theorem expand_fills (s : State) (ops : List HostOp) :
    (s.expand ops).fills = s.fills := rfl
@[simp] theorem expand_iposKnown (s : State) (ops : List HostOp) :
    (s.expand ops).iposKnown = s.iposKnown := rfl

/-! ### `State.logRead` -/

@[simp] theorem logRead_params (s : State) (r : HostRead) :
    (s.logRead r).params = s.params := rfl
@[simp] theorem logRead_regs (s : State) (r : HostRead) :
    (s.logRead r).regs = s.regs := rfl
@[simp] theorem logRead_phase (s : State) (r : HostRead) :
    (s.logRead r).phase = s.phase := rfl
@[simp] theorem logRead_valid (s : State) (r : HostRead) :
    (s.logRead r).valid = s.valid := rfl
@[simp] theorem logRead_buf (s : State) (r : HostRead) :
    (s.logRead r).buf = s.buf := rfl
@[simp] theorem logRead_u1 (s : State) (r : HostRead) :
    (s.logRead r).u1 = s.u1 := rfl
@[simp] theorem logRead_u2 (s : State) (r : HostRead) :
    (s.logRead r).u2 = s.u2 := rfl
@[simp] theorem logRead_script (s : State) (r : HostRead) :
    (s.logRead r).script = s.script := rfl
@[simp] theorem logRead_hostLog (s : State) (r : HostRead) :
    (s.logRead r).hostLog = s.hostLog ++ [r] := rfl
@[simp] theorem logRead_freeCtr (s : State) (r : HostRead) :
    (s.logRead r).freeCtr = s.freeCtr := rfl
@[simp] theorem logRead_epoch (s : State) (r : HostRead) :
    (s.logRead r).epoch = s.epoch := rfl
@[simp] theorem logRead_pristine (s : State) (r : HostRead) :
    (s.logRead r).pristine = s.pristine := rfl
@[simp] theorem logRead_fills (s : State) (r : HostRead) :
    (s.logRead r).fills = s.fills := rfl
@[simp] theorem logRead_iposKnown (s : State) (r : HostRead) :
    (s.logRead r).iposKnown = s.iposKnown := rfl

/-! ### `State.skip` -/

@[simp] theorem skip_params (s : State) (n : Nat) :
    (s.skip n).params = s.params := rfl
@[simp] theorem skip_regs (s : State) (n : Nat) :
    (s.skip n).regs = { s.regs with ipos := reg (s.regs.ipos.toNat + n) } := rfl
@[simp] theorem skip_phase (s : State) (n : Nat) :
    (s.skip n).phase = s.phase := rfl
@[simp] theorem skip_valid (s : State) (n : Nat) :
    (s.skip n).valid = s.valid := rfl
@[simp] theorem skip_buf (s : State) (n : Nat) :
    (s.skip n).buf = s.buf := rfl
@[simp] theorem skip_u1 (s : State) (n : Nat) :
    (s.skip n).u1 = s.u1 := rfl
@[simp] theorem skip_u2 (s : State) (n : Nat) :
    (s.skip n).u2 = s.u2 := rfl
@[simp] theorem skip_script (s : State) (n : Nat) :
    (s.skip n).script = s.script := rfl
@[simp] theorem skip_hostLog (s : State) (n : Nat) :
    (s.skip n).hostLog = s.hostLog := rfl
@[simp] theorem skip_freeCtr (s : State) (n : Nat) :
    (s.skip n).freeCtr = s.freeCtr := rfl
@[simp] theorem skip_epoch (s : State) (n : Nat) :
    (s.skip n).epoch = s.epoch := rfl
@[simp] theorem skip_pristine (s : State) (n : Nat) :
    (s.skip n).pristine = s.pristine := rfl
@[simp] theorem skip_fills (s : State) (n : Nat) :
    (s.skip n).fills = s.fills := rfl
@[simp] theorem skip_iposKnown (s : State) (n : Nat) :
    (s.skip n).iposKnown = s.iposKnown := rfl

/-! ### `State.raiseU1` -/

@[simp] theorem raiseU1_eq (s : State) (f : FaultCode) : s.raiseU1 f = s.raise f .inflate := rfl

/-! ### Valid flags and buffers -/

@[simp] theorem put_get_same (v : ValidFlags) (d : Dest) (b : Bool) : (v.put d b).get d = b := by cases d <;> rfl

theorem put_get_other (v : ValidFlags) (d e : Dest) (b : Bool) (h : e ≠ d) : (v.put d b).get e = v.get e := by
  cases d <;> cases e <;> first | rfl | exact absurd rfl h

@[simp] theorem buf_put_get_same (b : Buffers) (k : Buf) (m : Memory) : (b.put k m).get k = m := by cases k <;> rfl

theorem buf_put_get_other (b : Buffers) (k j : Buf) (m : Memory) (h : j ≠ k) : (b.put k m).get j = b.get j := by
  cases k <;> cases j <;> first | rfl | exact absurd rfl h

end Sys2Proof.Machine
end

