-- ==== Sys2Proof/Laws/Memory.lean ====
section
/-! SUPPORT. Buffers: a read after a write, the canonical form is kept, and addresses stay below a bound
(20_memory.md R70, R71, R82). -/

namespace Sys2Proof.Machine

/-! ### The cells of a write -/

theorem mem_cells {c : Host.Cell} : ∀ {bs : List Byte} {a : Nat}, c ∈ Memory.cells a bs → a ≤ c.1 ∧ c.1 < a + bs.length
  | [], _, h => by simp [Memory.cells] at h
  | b :: bs, a, h => by
    rcases List.mem_cons.1 h with rfl | h
    · simp
    · have := mem_cells h; simp only [List.length_cons]; omega

theorem cells_wf : ∀ (bs : List Byte) (a : Nat), (Memory.cells a bs).wf
  | [], _ => List.Pairwise.nil
  | b :: bs, a => List.pairwise_cons.2 ⟨fun c hc => by have := mem_cells hc; simp only; omega, cells_wf bs (a + 1)⟩

theorem cells_read : ∀ (bs : List Byte) (a k : Nat),
    Memory.read (Memory.cells a bs) k = if a ≤ k then bs[k - a]? else none
  | [], a, k => by simp [Memory.cells, Memory.read]
  | b :: bs, a, k => by
    have ih := cells_read bs (a + 1) k
    simp only [Memory.cells, Memory.read, List.find?_cons] at ih ⊢
    by_cases hk : a = k
    · subst hk; simp
    · have hne : (a == k) = false := by simp [hk]
      rw [hne]; simp only; rw [ih]
      by_cases hle : a + 1 ≤ k
      · have h2 : a ≤ k := by omega
        rw [if_pos hle, if_pos h2]
        have : k - a = (k - (a + 1)) + 1 := by omega
        rw [this, List.getElem?_cons_succ]
      · have h2 : ¬ a ≤ k := by omega
        rw [if_neg hle, if_neg h2]

/-! ### Read after write -/

theorem find_filter_keep {m : Memory} {k : Nat} {p : Host.Cell → Bool} (h : ∀ c : Host.Cell, c.1 = k → p c = true) :
    (m.filter p).find? (fun c => c.1 == k) = m.find? (fun c => c.1 == k) := by
  induction m with
  | nil => rfl
  | cons c m ih =>
    by_cases hc : c.1 = k
    · have hp := h c hc
      simp [hp, hc]
    · by_cases hp : p c = true <;> simp [hp, hc, ih]

theorem find_filter_drop {m : Memory} {k : Nat} {p : Host.Cell → Bool} (h : ∀ c : Host.Cell, c.1 = k → p c = false) :
    (m.filter p).find? (fun c => c.1 == k) = none := by
  rw [List.find?_eq_none]
  intro c hc
  have hp := (List.mem_filter.1 hc).2
  intro hk
  have := h c (by simpa using hk)
  simp [this] at hp

/-- A read after a write: the byte written inside the range, the old one outside. -/
theorem read_write (m : Memory) (a : Nat) (bs : List Byte) (k : Nat) :
    Memory.read (Memory.write m a bs) k = if a ≤ k ∧ k < a + bs.length then bs[k - a]? else Memory.read m k := by
  have hc := cells_read bs a k
  simp only [Memory.read] at hc
  simp only [Memory.read, Memory.write, List.find?_append]
  by_cases h1 : k < a
  · have e1 : (m.filter (fun c => decide (c.1 < a))).find? (fun c => c.1 == k) = m.find? (fun c => c.1 == k) :=
      find_filter_keep (fun c hc => by simp [hc, h1])
    have e3 : (m.filter (fun c => decide (a + bs.length ≤ c.1))).find? (fun c => c.1 == k) = none :=
      find_filter_drop (fun c hc => by simp [hc]; omega)
    have e2 : (Memory.cells a bs).find? (fun c => c.1 == k) = none := by
      rw [if_neg (by omega)] at hc; simpa using hc
    rw [e1, e2, e3, if_neg (by omega)]; simp
  · have e1 : (m.filter (fun c => decide (c.1 < a))).find? (fun c => c.1 == k) = none :=
      find_filter_drop (fun c hc => by simp [hc]; omega)
    by_cases h2 : k < a + bs.length
    · have e3 : (m.filter (fun c => decide (a + bs.length ≤ c.1))).find? (fun c => c.1 == k) = none :=
        find_filter_drop (fun c hc => by simp [hc]; omega)
      rw [e1, e3, if_pos ⟨by omega, h2⟩]
      simp only [Option.none_or, Option.or_none]
      rw [hc, if_pos (by omega)]
    · have e3 : (m.filter (fun c => decide (a + bs.length ≤ c.1))).find? (fun c => c.1 == k) = m.find? (fun c => c.1 == k) :=
        find_filter_keep (fun c hc => by simp [hc]; omega)
      have e2 : (Memory.cells a bs).find? (fun c => c.1 == k) = none := by
        rw [if_pos (by omega), List.getElem?_eq_none (by omega)] at hc; simpa using hc
      rw [e1, e2, e3, if_neg (by omega)]; simp

theorem read_write_in (m : Memory) (a : Nat) (bs : List Byte) (j : Nat) (h : j < bs.length) :
    Memory.read (Memory.write m a bs) (a + j) = some bs[j] := by
  rw [read_write, if_pos (by omega), Nat.add_sub_cancel_left, List.getElem?_eq_getElem h]

theorem read_write_out (m : Memory) (a : Nat) (bs : List Byte) (k : Nat) (h : k < a ∨ a + bs.length ≤ k) :
    Memory.read (Memory.write m a bs) k = Memory.read m k := by
  rw [read_write, if_neg (by omega)]

/-! ### The canonical form and the bound -/

theorem mem_write {c : Host.Cell} {m : Memory} {a : Nat} {bs : List Byte} (h : c ∈ Memory.write m a bs) :
    c ∈ m ∨ (a ≤ c.1 ∧ c.1 < a + bs.length) := by
  rcases List.mem_append.1 h with h | h
  · rcases List.mem_append.1 h with h | h
    · exact .inl (List.mem_filter.1 h).1
    · exact .inr (mem_cells h)
  · exact .inl (List.mem_filter.1 h).1

/-- Every write keeps the canonical form. -/
theorem write_wf {m : Memory} (h : m.wf) (a : Nat) (bs : List Byte) : (Memory.write m a bs).wf := by
  refine List.pairwise_append.2 ⟨List.pairwise_append.2 ⟨h.filter _, cells_wf bs a, ?_⟩, h.filter _, ?_⟩
  · intro x hx y hy
    have h1 := (List.mem_filter.1 hx).2
    have h2 := mem_cells hy
    simp at h1; omega
  · intro x hx y hy
    have h2 := (List.mem_filter.1 hy).2
    simp at h2
    rcases List.mem_append.1 hx with hx | hx
    · have h1 := (List.mem_filter.1 hx).2
      simp at h1; omega
    · have h1 := mem_cells hx
      omega

/-- A write inside a bound keeps the bound. -/
theorem write_below {m : Memory} {n : Nat} (h : Memory.Below m n) (a : Nat) (bs : List Byte) (hb : a + bs.length ≤ n) :
    Memory.Below (Memory.write m a bs) n := by
  intro c hc
  rcases mem_write hc with hc | hc
  · exact h c hc
  · omega

/-! ### Bytes of a buffer -/

/-- A byte of the written range. -/
theorem byteAt_writeBytes_in (s : State) (b : Buf) (a : Nat) (bs : List Byte) (j : Nat) (h : j < bs.length) :
    (s.writeBytes b a bs).byteAt b (a + j) = bs[j] := by
  simp [State.byteAt, read_write_in, h]

/-- A byte of the same buffer outside the written range. -/
theorem byteAt_writeBytes_out (s : State) (b : Buf) (a : Nat) (bs : List Byte) (k : Nat) (h : k < a ∨ a + bs.length ≤ k) :
    (s.writeBytes b a bs).byteAt b k = s.byteAt b k := by
  simp [State.byteAt, read_write_out _ _ _ _ h]

/-- A byte of another buffer. -/
theorem byteAt_writeBytes_other (s : State) (b c : Buf) (a : Nat) (bs : List Byte) (k : Nat) (h : c ≠ b) :
    (s.writeBytes b a bs).byteAt c k = s.byteAt c k := by
  simp [State.byteAt, buf_put_get_other _ _ _ _ h]

/-- A byte depends on the buffers and the count of resets alone. -/
theorem byteAt_congr {s t : State} {b : Buf} {k : Nat} (h1 : t.buf.get b = s.buf.get b) (h2 : t.epoch = s.epoch) :
    t.byteAt b k = s.byteAt b k := by
  simp [State.byteAt, h1, h2]

/-- `MemRead` byte by byte. -/
theorem bytesAt_getElem (s : State) (b : Buf) (i n k : Nat) (h : k < n) :
    (s.bytesAt b i n)[k]'(by simp [State.bytesAt, h]) = s.byteAt b (i + k) := by
  simp [State.bytesAt]

@[simp] theorem bytesAt_length (s : State) (b : Buf) (i n : Nat) : (s.bytesAt b i n).length = n := by
  simp [State.bytesAt]

/-- A copied buffer reads as its source. -/
theorem byteAt_copyBuf (s : State) (a b : Buf) (n k : Nat) (h : k < n) : (s.copyBuf a b n).byteAt b k = s.byteAt a k := by
  have := byteAt_writeBytes_in s b 0 (s.bytesAt a 0 n) k (by simpa using h)
  simpa [State.copyBuf, State.bytesAt] using this

end Sys2Proof.Machine
end

