-- ==== Sys2Proof/Laws/Numerics.lean ====
section
/-! SUPPORT. The exact reals: the sums of cosines are the real numbers they stand for, and every operation of `exactReals` on rationals
is the operation of the rational numbers, so that a rule of 45_dct_hash.md whose values are rational can be computed there. -/

namespace Sys2Proof.Machine

@[simp] theorem Trig_rat?_const (c : Rat) : (Trig.const c).rat? = some c := by
  by_cases h : c = 0 <;> simp [Trig.const, Trig.rat?, h]

@[simp] theorem Trig_scale_const (c d : Rat) : (Trig.const d).scale c = Trig.const (c * d) := by
  by_cases hc : c = 0 <;> by_cases hd : d = 0 <;> simp [Trig.scale, Trig.const, hc, hd]

@[simp] theorem Trig_add_const (c d : Rat) : (Trig.const c).add (Trig.const d) = Trig.const (c + d) := by
  by_cases hc : c = 0 <;> by_cases hd : d = 0 <;> by_cases hs : c + d = 0 <;>
    simp_all [Trig.add, Trig.const, Trig.insert, add_comm]

@[simp] theorem rat?_ofRat (c : Rat) : (ExactReal.ofRat c).rat? = some c := by simp [ExactReal.ofRat, ExactReal.rat?]

@[simp] theorem scale_ofRat (c d : Rat) : (ExactReal.ofRat d).scale c = .ofRat (c * d) := by simp [ExactReal.ofRat, ExactReal.scale]

@[simp] theorem add_ofRat (c d : Rat) : (ExactReal.ofRat c).add (.ofRat d) = .ofRat (c + d) := by simp [ExactReal.ofRat, ExactReal.add]

@[simp] theorem sub_ofRat (c d : Rat) : (ExactReal.ofRat c).sub (.ofRat d) = .ofRat (c - d) := by
  rw [ExactReal.sub, scale_ofRat, add_ofRat]; congr 1; ring

@[simp] theorem mul_ofRat (c d : Rat) : (ExactReal.ofRat c).mul (.ofRat d) = .ofRat (c * d) := by simp [ExactReal.mul]

@[simp] theorem div_ofRat (c : Rat) {d : Rat} (h : d ≠ 0) : (ExactReal.ofRat c).div (.ofRat d) = .ofRat (c / d) := by
  simp only [ExactReal.div, rat?_ofRat, if_neg h, scale_ofRat]; congr 1; field_simp

theorem ratSign_nonneg (c : Rat) : 0 ≤ ratSign c ↔ 0 ≤ c := by
  rcases lt_trichotomy c 0 with h | h | h
  · simp [ratSign, h.ne, h.not_gt, h.not_ge]
  · simp [ratSign, h]
  · simp [ratSign, h.ne', h, h.le]

@[simp] theorem le_ofRat (c d : Rat) : (ExactReal.ofRat c).le (.ofRat d) = decide (c ≤ d) := by
  have h1 : (ExactReal.ofRat (d - c)).sign? = some (ratSign (d - c) * 1) := by
    simp [ExactReal.ofRat, ExactReal.sign?, Trig.sign, ratSign]
  simp [ExactReal.le, h1, ratSign_nonneg]

@[simp] theorem floor_ofRat (c : Rat) : (ExactReal.ofRat c).floor = c.floor := by simp [ExactReal.floor]

/-- A rational factor scales. -/
theorem ofRat_mul (c : Rat) (y : ExactReal) : (ExactReal.ofRat c).mul y = y.scale c := by simp only [ExactReal.mul, rat?_ofRat]

/-- A rational factor 0 makes a formed number 0. -/
@[simp] theorem zero_mul_quot (a : Trig) : (ExactReal.ofRat 0).mul (.quot a (Trig.const 1)) = .ofRat 0 := by
  rw [ofRat_mul]; simp [ExactReal.scale, Trig.scale, ExactReal.ofRat, Trig.const]

@[simp] theorem piTimes_mul_ofRat (r c : Rat) : (ExactReal.piTimes r).mul (.ofRat c) = .ofPi (c * r) := by
  simp only [ExactReal.mul, rat?_ofRat, show (ExactReal.piTimes r).rat? = none from rfl, ExactReal.scale]

@[simp] theorem piTimes_div_ofRat (r : Rat) {c : Rat} (h : c ≠ 0) : (ExactReal.piTimes r).div (.ofRat c) = .ofPi (1 / c * r) := by
  simp only [ExactReal.div, rat?_ofRat, if_neg h, ExactReal.scale]

/-- The argument of a kernel's cosine (45_dct_hash.md R328). -/
theorem wave_eq {side : Nat} (h : 1 ≤ side) (c k : Nat) :
    exactReals.wave side c k = if c = 0 then .ofRat 1 else (ExactReal.piTimes (((k : Rat) + 1 / 2) * (c * (1 / side)))).cos := by
  have hs : (side : Rat) ≠ 0 := by positivity
  simp only [NumberSystem.wave, NumberSystem.frac, exactReals, Nat.cast_one, Nat.cast_ofNat]
  rw [div_ofRat _ (by norm_num), add_ofRat, piTimes_div_ofRat _ hs, ExactReal.ofPi, if_neg (by positivity), piTimes_mul_ofRat,
    ExactReal.ofPi]
  by_cases hc : c = 0
  · subst hc
    rw [if_pos (by simp), mul_ofRat, if_pos rfl, zero_mul]
    simp [ExactReal.ofRat, ExactReal.cos, Trig.const]
  · have hc' : (c : Rat) ≠ 0 := by exact_mod_cast hc
    rw [if_neg (by positivity), piTimes_mul_ofRat, ExactReal.ofPi, if_neg (by positivity), if_neg hc, mul_one]

/-- A factor `cos(PI/side * c * (k + 1/2))` is formed (45_dct_hash.md R328). -/
theorem wave_formed {side : Nat} (h : 1 ≤ side) (c k : Nat) : ∃ a : Trig, exactReals.wave side c k = .quot a (Trig.const 1) := by
  rw [wave_eq h]
  split
  · exact ⟨_, rfl⟩
  · exact ⟨_, rfl⟩

/-- At frequency 0 the factor is 1. -/
theorem wave_zero {side : Nat} (h : 1 ≤ side) (k : Nat) : exactReals.wave side 0 k = .ofRat 1 := by rw [wave_eq h, if_pos rfl]

/-! ### The real number a sum of cosines stands for -/

/-- `sum of c * cos(PI * r)`. -/
noncomputable def Trig.toReal (t : Trig) : ℝ := (t.map fun p => (p.2 : ℝ) * Real.cos (Real.pi * p.1)).sum

@[simp] theorem toReal_nil : Trig.toReal [] = 0 := rfl

@[simp] theorem toReal_cons (p : Rat × Rat) (t : Trig) :
    Trig.toReal (p :: t) = (p.2 : ℝ) * Real.cos (Real.pi * p.1) + Trig.toReal t := rfl

@[simp] theorem toReal_const (c : Rat) : (Trig.const c).toReal = c := by
  by_cases h : c = 0 <;> simp [Trig.const, h]

theorem toReal_rat? {t : Trig} {c : Rat} (h : t.rat? = some c) : t.toReal = c := by
  unfold Trig.rat? at h
  split at h
  · obtain rfl := Option.some.inj h; simp
  · split at h
    · rename_i r d hr
      obtain rfl := Option.some.inj h
      simp [hr]
    · cases h
  · cases h

theorem toReal_insert (r c : Rat) (t : Trig) : (Trig.insert r c t).toReal = c * Real.cos (Real.pi * r) + t.toReal := by
  induction t with
  | nil => by_cases h : c = 0 <;> simp [Trig.insert, h]
  | cons p t ih =>
    obtain ⟨k, d⟩ := p
    simp only [Trig.insert]
    split
    · rename_i hk
      subst hk
      split
      · rename_i h
        have : (c : ℝ) + d = 0 := by exact_mod_cast h
        simp only [toReal_cons]; linear_combination (-Real.cos (Real.pi * r)) * this
      · simp only [toReal_cons]; push_cast; ring
    · split
      · split
        · rename_i h; simp [h]
        · simp
      · simp only [toReal_cons, ih]; ring

/-- The angle folded into `[0, 1/2)` has the same cosine up to the sign that is taken over. -/
theorem toReal_addCos (r c : Rat) (t : Trig) : (Trig.addCos r c t).toReal = c * Real.cos (Real.pi * r) + t.toReal := by
  have h1 : Real.cos (Real.pi * ((r - 2 * ((r / 2).floor : Rat) : Rat) : ℝ)) = Real.cos (Real.pi * r) := by
    rw [← Real.cos_add_int_mul_two_pi _ (r / 2).floor]; congr 1; push_cast; ring
  have h2 : ∀ x : Rat, Real.cos (Real.pi * ((if 1 < x then 2 - x else x : Rat) : ℝ)) = Real.cos (Real.pi * x) := by
    intro x
    split
    · rw [← Real.cos_two_pi_sub]; congr 1; push_cast; ring
    · rfl
  have h3 : ∀ x : Rat, Real.cos (Real.pi * ((1 - x : Rat) : ℝ)) = -Real.cos (Real.pi * x) := by
    intro x; rw [← Real.cos_pi_sub]; congr 1; push_cast; ring
  simp only [Trig.addCos]
  rw [← h1, ← h2]
  generalize (if 1 < r - 2 * ((r / 2).floor : Rat) then 2 - (r - 2 * ((r / 2).floor : Rat)) else r - 2 * ((r / 2).floor : Rat)) = x
  split
  · rename_i hx
    have : Real.pi * ((x : Rat) : ℝ) = Real.pi / 2 := by rw [hx]; push_cast; ring
    rw [this, Real.cos_pi_div_two]; ring
  · split
    · rw [toReal_insert, h3]; push_cast; ring
    · rw [toReal_insert]

@[simp] theorem toReal_scale (c : Rat) (t : Trig) : (t.scale c).toReal = c * t.toReal := by
  unfold Trig.scale
  split
  · rename_i h; simp [h]
  · induction t with
    | nil => simp
    | cons p t ih => simp only [List.map_cons, toReal_cons, ih]; push_cast; ring

@[simp] theorem toReal_add (x y : Trig) : (x.add y).toReal = x.toReal + y.toReal := by
  unfold Trig.add
  induction x generalizing y with
  | nil => simp
  | cons p x ih => rw [List.foldl_cons, ih, toReal_insert, toReal_cons]; ring

theorem toReal_addMulTerm (r c : Rat) (y acc : Trig) :
    (Trig.addMulTerm r c y acc).toReal = c * Real.cos (Real.pi * r) * y.toReal + acc.toReal := by
  unfold Trig.addMulTerm
  induction y generalizing acc with
  | nil => simp
  | cons p y ih =>
    rw [List.foldl_cons, ih, toReal_addCos, toReal_addCos, toReal_cons]
    have := Real.two_mul_cos_mul_cos (Real.pi * r) (Real.pi * p.1)
    have e1 : Real.pi * ((r - p.1 : Rat) : ℝ) = Real.pi * r - Real.pi * p.1 := by push_cast; ring
    have e2 : Real.pi * ((r + p.1 : Rat) : ℝ) = Real.pi * r + Real.pi * p.1 := by push_cast; ring
    rw [e1, e2]
    push_cast
    linear_combination (-(c : ℝ) * p.2 / 2) * this

@[simp] theorem toReal_mul (x y : Trig) : (x.mul y).toReal = x.toReal * y.toReal := by
  unfold Trig.mul
  split
  · rename_i a h; rw [toReal_scale, toReal_rat? h]
  · rename_i b _ h; rw [toReal_scale, toReal_rat? h]; ring
  · have : ∀ x acc : Trig, (x.foldl (fun acc p => Trig.addMulTerm p.1 p.2 y acc) acc).toReal = x.toReal * y.toReal + acc.toReal := by
      intro x
      induction x with
      | nil => simp
      | cons p x ih => intro acc; rw [List.foldl_cons, ih, toReal_addMulTerm, toReal_cons]; ring
    simpa using this x []

/-! ### The derived operations on rationals -/

@[simp] theorem ofNat_exactReals (n : Nat) : exactReals.ofNat n = .ofRat n := rfl

@[simp] theorem frac_exactReals (a : Nat) {b : Nat} (h : b ≠ 0) : exactReals.frac a b = .ofRat (a / b) :=
  div_ofRat _ (by exact_mod_cast h)

theorem sum_exactReals (l : List Rat) : exactReals.sum (l.map .ofRat) = .ofRat l.sum := by
  have : ∀ (l : List Rat) (c : Rat), (l.map ExactReal.ofRat).foldl exactReals.add (.ofRat c) = .ofRat (c + l.sum) := by
    intro l
    induction l with
    | nil => simp
    | cons d l ih => intro c; simp only [List.map_cons, List.foldl_cons, List.sum_cons]
                     rw [show exactReals.add (.ofRat c) (.ofRat d) = .ofRat (c + d) from add_ofRat c d, ih]; congr 1; ring
  simpa [NumberSystem.sum] using this l 0

theorem clamp01_exactReals (c : Rat) : exactReals.clamp01 (.ofRat c) = .ofRat (max 0 (min 1 c)) := by
  simp only [NumberSystem.clamp01, exactReals, le_ofRat, decide_eq_true_eq]
  split
  · rename_i h; rw [max_eq_left]; · simp
    exact (min_le_right _ _).trans (by simpa using h)
  · split
    · rename_i h1 h2; rw [min_eq_left (by simpa using h2)]; simp
    · rename_i h1 h2
      simp at h1 h2
      rw [min_eq_right (le_of_lt h2), max_eq_right (le_of_lt h1)]

/-- A value in its field's range is the field. -/
theorem fieldBits_inRange {bits : Nat} {v : Int} (h0 : 0 ≤ v) (h1 : v < 2 ^ bits) : fieldBits bits v = BitVec.ofInt bits v :=
  if_pos ⟨h0, h1⟩

/-- The number a field in range holds. -/
theorem toNat_fieldBits {bits : Nat} {v : Int} (h0 : 0 ≤ v) (h1 : v < 2 ^ bits) : ((fieldBits bits v).toNat : Int) = v := by
  have : ((2 ^ bits : Nat) : Int) = 2 ^ bits := by push_cast; rfl
  rw [fieldBits_inRange h0 h1, BitVec.toNat_ofInt, this, Int.emod_eq_of_lt h0 h1, Int.toNat_of_nonneg h0]

theorem byte_exactReals (c : Rat) : exactReals.byte (.ofRat c) = BitVec.ofInt 8 (255 * max 0 (min 1 c)).floor := by
  have lo : (0 : Rat) ≤ max 0 (min 1 c) := le_max_left _ _
  have hi : max 0 (min 1 c) ≤ 1 := max_le zero_le_one (min_le_left _ _)
  have f0 : 0 ≤ (255 * max 0 (min 1 c)).floor := Rat.le_floor_iff.mpr (by push_cast; positivity)
  have f1 : (255 * max 0 (min 1 c)).floor < 2 ^ 8 := Rat.floor_lt_iff.mpr (by push_cast; linarith)
  rw [NumberSystem.byte, clamp01_exactReals, ← fieldBits_inRange f0 f1]
  simp [exactReals]

theorem rhu_exactReals (c : Rat) : exactReals.rhu (.ofRat c) = (c + 1 / 2).floor := by
  rw [NumberSystem.rhu, frac_exactReals _ (by decide)]; simp [exactReals]

end Sys2Proof.Machine
end

