-- ==== Sys2Proof/Laws/PerInstr.lean ====
section
/-! SUPPORT. One fact about the encoding of every instruction: its value fits the width of its format (30_encoding.md). -/

namespace Sys2Proof.Laws.Fits

/-- Width in bits of a format's value (30_encoding.md R100, R102, R104, R105, R107, R113). -/
def width : Format → Nat
  | .cmd => 32
  | .hdr => 3
  | .body => 3
  | .counts => 14
  | .metaLength => 3
  | .codeLengths => 0
  | .cl => 5
  | .ll => 9
  | .d => 5
  | .filter => 8
  | .blend => 32
  | .dispose => 32

/-- An encoded well-formed instruction fits its format. -/
def Statement (i : Instr) : Prop := i.wf = true → ∀ f w, encode i = some (f, w) → w < 2 ^ width f

theorem of_encode {i : Instr} {f : Format} {w : Nat} (h : encode i = some (f, w)) (hw : w < 2 ^ width f) : Statement i := by
  intro _ g v e
  rw [h] at e
  obtain ⟨rfl, rfl⟩ := Prod.mk.inj (Option.some.inj e)
  exact hw

theorem of_none {i : Instr} (h : encode i = none) : Statement i := by
  intro _ g v e
  rw [h] at e
  exact absurd e (by simp)

theorem nop : Statement .nop := of_encode rfl (by decide)
theorem clear : Statement .clear := of_encode rfl (by decide)
theorem inflate : Statement .inflate := of_encode rfl (by decide)
theorem recon : Statement .recon := of_encode rfl (by decide)
theorem canvasInit : Statement .canvasInit := of_encode rfl (by decide)
theorem compose : Statement .compose := of_encode rfl (by decide)
theorem hashEnc : Statement .hashEnc := of_encode rfl (by decide)
theorem hashDec : Statement .hashDec := of_encode rfl (by decide)
theorem hashAvg : Statement .hashAvg := of_encode rfl (by decide)
theorem hashAspect : Statement .hashAspect := of_encode rfl (by decide)
theorem cmdReserved6To7 (op : BitVec 4) : Statement (.cmdReserved6To7 op) := of_encode rfl (by have h := op.isLt; simp only [width]; omega)
theorem cmdReserved12To15 (op : BitVec 4) : Statement (.cmdReserved12To15 op) := of_encode rfl (by have h := op.isLt; simp only [width]; omega)
theorem frame (a : FrameArgs) : Statement (.frame a) := of_none rfl
theorem decodeStill (a : StillArgs) : Statement (.decodeStill a) := of_none rfl
theorem decodeAnim (a : AnimArgs) : Statement (.decodeAnim a) := of_none rfl
theorem hdr (bfinal : BitVec 1) (btype : BitVec 2) : Statement (.hdr bfinal btype) := of_encode rfl (by have h1 := bfinal.isLt; have h2 := btype.isLt; simp only [width]; omega)
theorem stored : Statement .stored := of_encode rfl (by decide)
theorem fixed : Statement .fixed := of_encode rfl (by decide)
theorem dyn : Statement .dyn := of_encode rfl (by decide)
theorem btypeIllegal : Statement .btypeIllegal := of_encode rfl (by decide)
theorem dynCounts (hlit hdist : BitVec 5) (hclen : BitVec 4) : Statement (.dynCounts hlit hdist hclen) := of_encode rfl (by have h1 := hlit.isLt; have h2 := hdist.isLt; have h3 := hclen.isLt; simp only [width]; omega)
theorem dynMetaLengths (length : BitVec 3) : Statement (.dynMetaLengths length) := of_encode rfl (by have h := length.isLt; simp only [width]; omega)
theorem dynCodeLengths : Statement .dynCodeLengths := of_encode rfl (by decide)
theorem cln (n : BitVec 4) : Statement (.cln n) := of_encode rfl (by have h := n.isLt; simp only [width]; omega)
theorem cl16 : Statement .cl16 := of_encode rfl (by decide)
theorem cl17 : Statement .cl17 := of_encode rfl (by decide)
theorem cl18 : Statement .cl18 := of_encode rfl (by decide)
theorem lit (byte : Byte) : Statement (.lit byte) := of_encode rfl (by have h := byte.isLt; simp only [width]; omega)
theorem eob : Statement .eob := of_encode rfl (by decide)
theorem len257 : Statement .len257 := of_encode rfl (by decide)
theorem len258 : Statement .len258 := of_encode rfl (by decide)
theorem len259 : Statement .len259 := of_encode rfl (by decide)
theorem len260 : Statement .len260 := of_encode rfl (by decide)
theorem len261 : Statement .len261 := of_encode rfl (by decide)
theorem len262 : Statement .len262 := of_encode rfl (by decide)
theorem len263 : Statement .len263 := of_encode rfl (by decide)
theorem len264 : Statement .len264 := of_encode rfl (by decide)
theorem len265 : Statement .len265 := of_encode rfl (by decide)
theorem len266 : Statement .len266 := of_encode rfl (by decide)
theorem len267 : Statement .len267 := of_encode rfl (by decide)
theorem len268 : Statement .len268 := of_encode rfl (by decide)
theorem len269 : Statement .len269 := of_encode rfl (by decide)
theorem len270 : Statement .len270 := of_encode rfl (by decide)
theorem len271 : Statement .len271 := of_encode rfl (by decide)
theorem len272 : Statement .len272 := of_encode rfl (by decide)
theorem len273 : Statement .len273 := of_encode rfl (by decide)
theorem len274 : Statement .len274 := of_encode rfl (by decide)
theorem len275 : Statement .len275 := of_encode rfl (by decide)
theorem len276 : Statement .len276 := of_encode rfl (by decide)
theorem len277 : Statement .len277 := of_encode rfl (by decide)
theorem len278 : Statement .len278 := of_encode rfl (by decide)
theorem len279 : Statement .len279 := of_encode rfl (by decide)
theorem len280 : Statement .len280 := of_encode rfl (by decide)
theorem len281 : Statement .len281 := of_encode rfl (by decide)
theorem len282 : Statement .len282 := of_encode rfl (by decide)
theorem len283 : Statement .len283 := of_encode rfl (by decide)
theorem len284 : Statement .len284 := of_encode rfl (by decide)
theorem len285 : Statement .len285 := of_encode rfl (by decide)
theorem llIllegal286To287 (sym : BitVec 9) : Statement (.llIllegal286To287 sym) := of_encode rfl (by have h := sym.isLt; simp only [width]; omega)
theorem dist0 : Statement .dist0 := of_encode rfl (by decide)
theorem dist1 : Statement .dist1 := of_encode rfl (by decide)
theorem dist2 : Statement .dist2 := of_encode rfl (by decide)
theorem dist3 : Statement .dist3 := of_encode rfl (by decide)
theorem dist4 : Statement .dist4 := of_encode rfl (by decide)
theorem dist5 : Statement .dist5 := of_encode rfl (by decide)
theorem dist6 : Statement .dist6 := of_encode rfl (by decide)
theorem dist7 : Statement .dist7 := of_encode rfl (by decide)
theorem dist8 : Statement .dist8 := of_encode rfl (by decide)
theorem dist9 : Statement .dist9 := of_encode rfl (by decide)
theorem dist10 : Statement .dist10 := of_encode rfl (by decide)
theorem dist11 : Statement .dist11 := of_encode rfl (by decide)
theorem dist12 : Statement .dist12 := of_encode rfl (by decide)
theorem dist13 : Statement .dist13 := of_encode rfl (by decide)
theorem dist14 : Statement .dist14 := of_encode rfl (by decide)
theorem dist15 : Statement .dist15 := of_encode rfl (by decide)
theorem dist16 : Statement .dist16 := of_encode rfl (by decide)
theorem dist17 : Statement .dist17 := of_encode rfl (by decide)
theorem dist18 : Statement .dist18 := of_encode rfl (by decide)
theorem dist19 : Statement .dist19 := of_encode rfl (by decide)
theorem dist20 : Statement .dist20 := of_encode rfl (by decide)
theorem dist21 : Statement .dist21 := of_encode rfl (by decide)
theorem dist22 : Statement .dist22 := of_encode rfl (by decide)
theorem dist23 : Statement .dist23 := of_encode rfl (by decide)
theorem dist24 : Statement .dist24 := of_encode rfl (by decide)
theorem dist25 : Statement .dist25 := of_encode rfl (by decide)
theorem dist26 : Statement .dist26 := of_encode rfl (by decide)
theorem dist27 : Statement .dist27 := of_encode rfl (by decide)
theorem dist28 : Statement .dist28 := of_encode rfl (by decide)
theorem dist29 : Statement .dist29 := of_encode rfl (by decide)
theorem dIllegal30To31 (sym : BitVec 5) : Statement (.dIllegal30To31 sym) := of_encode rfl (by have h := sym.isLt; simp only [width]; omega)
theorem filterNone : Statement .filterNone := of_encode rfl (by decide)
theorem filterSub : Statement .filterSub := of_encode rfl (by decide)
theorem filterUp : Statement .filterUp := of_encode rfl (by decide)
theorem filterAverage : Statement .filterAverage := of_encode rfl (by decide)
theorem filterPaeth : Statement .filterPaeth := of_encode rfl (by decide)
theorem filterIllegal (ft : Byte) : Statement (.filterIllegal ft) := of_encode rfl (by have h := ft.isLt; simp only [width]; omega)
theorem blendSource : Statement .blendSource := of_encode rfl (by decide)
theorem blendOver : Statement .blendOver := of_encode rfl (by decide)
theorem blendReserved2To3 (blend : BitVec 2) : Statement (.blendReserved2To3 blend) := of_encode rfl (by have h := blend.isLt; simp only [width]; omega)
theorem disposeNone : Statement .disposeNone := of_encode rfl (by decide)
theorem disposeClearToBackground : Statement .disposeClearToBackground := of_encode rfl (by decide)
theorem disposeRestorePrevious : Statement .disposeRestorePrevious := of_encode rfl (by decide)
theorem disposeReserved3 : Statement .disposeReserved3 := of_encode rfl (by decide)

end Sys2Proof.Laws.Fits
end

