-- ==== Sys2Proof/Laws/Unit.lean ====
section
/-! SUPPORT. Everything the shared operations can do: starting a command, raising, one stream bit, one byte of output. -/

namespace Sys2Proof.Machine

/-! ### Unit operations in sequence -/

@[simp] theorem Res_bind_ok {α β : Type} (a : α) (s : State) (k : α → State → Res β) : (Res.ok a s).bind k = k a s := rfl

@[simp] theorem Res_bind_raised {α β : Type} (s : State) (k : α → State → Res β) : (Res.raised s).bind k = .raised s := rfl

@[simp] theorem Res_outcome_ok (s : State) : (Res.ok () s).outcome = .next s := rfl

@[simp] theorem Res_outcome_raised (s : State) : (Res.raised s).outcome = .next s := rfl

/-- A unit operation always leaves a next state (60_exceptions.md R390). -/
theorem Res_outcome_next (r : Res Unit) : ∃ t, r.outcome = .next t := by cases r <;> exact ⟨_, rfl⟩

/-! ### Commands (40_commands.md R140) -/

theorem command_busy {s : State} {a : Await} (h : s.phase = .busy a) (adm : Option (FaultCode × UnitId)) (run : Unit → State) :
    s.command adm run = .next s := by simp [State.command, h]

theorem command_fault {s : State} (h : s.phase = .fault) (adm : Option (FaultCode × UnitId)) (run : Unit → State) :
    s.command adm run = .next s := by simp [State.command, h]

theorem command_refused {s : State} (h : s.Ready) (f : FaultCode) (u : UnitId) (run : Unit → State) :
    s.command (some (f, u)) run = .next (s.raise f u) := by rcases h with h | h <;> simp [State.command, h]

theorem command_runs {s : State} (h : s.Ready) (run : Unit → State) : s.command none run = .next (run ()) := by
  rcases h with h | h <;> simp [State.command, h]

/-- Everything a `CMD` write of a command other than CLEAR can do. -/
theorem command_cases (s : State) (adm : Option (FaultCode × UnitId)) (run : Unit → State) :
    s.command adm run = .next s ∨ (s.Ready ∧ ∃ f u, adm = some (f, u) ∧ s.command adm run = .next (s.raise f u)) ∨
      (s.Ready ∧ adm = none ∧ s.command adm run = .next (run ())) := by
  cases hp : s.phase with
  | busy a => exact .inl (command_busy hp adm run)
  | fault => exact .inl (command_fault hp adm run)
  | idle =>
    cases adm with
    | none => exact .inr (.inr ⟨.inl hp, rfl, command_runs (.inl hp) run⟩)
    | some f => exact .inr (.inl ⟨.inl hp, f.1, f.2, rfl, command_refused (.inl hp) f.1 f.2 run⟩)
  | done =>
    cases adm with
    | none => exact .inr (.inr ⟨.inr hp, rfl, command_runs (.inr hp) run⟩)
    | some f => exact .inr (.inl ⟨.inr hp, f.1, f.2, rfl, command_refused (.inr hp) f.1 f.2 run⟩)

/-- An admission list admits exactly when every check holds. -/
theorem firstFailing_none (u : UnitId) : ∀ l : List (Bool × FaultCode),
    firstFailing u l = none ↔ ∀ c ∈ l, c.1 = true
  | [] => by simp [firstFailing]
  | (true, f) :: l => by simpa [firstFailing] using firstFailing_none u l
  | (false, f) :: l => by simp [firstFailing]

/-! ### Register values -/

theorem reg_toNat {n : Nat} (h : n < 2 ^ 32) : (reg n).toNat = n := by rw [reg, BitVec.toNat_ofNat, Nat.mod_eq_of_lt h]

/-- A stream bit is 0 or 1. -/
theorem streamBit_lt (s : State) (k : Nat) : s.streamBit k < 2 := Nat.mod_lt _ (by decide)

/-! ### The bit reader (41_inflate.md R170) -/

/-- One bit of the payload. -/
theorem getbit_ok {s : State} (h : s.BitsLeft 1) : s.getbit = .ok (s.streamBit s.regs.ipos.toNat) (s.skip 1) := by
  rw [State.getbit, if_neg (by simp only [State.BitsLeft] at h; omega)]; rfl

/-- No bit is left. -/
theorem getbit_raised {s : State} (h : ¬ s.BitsLeft 1) : s.getbit = .raised (s.raise .inputExhausted .inflate) := by
  rw [State.getbit, if_pos (by simp only [State.BitsLeft] at h; omega)]; rfl

/-- Everything `getbit` can do. -/
theorem getbit_cases (s : State) :
    (s.BitsLeft 1 ∧ s.getbit = .ok (s.streamBit s.regs.ipos.toNat) (s.skip 1)) ∨
      (¬ s.BitsLeft 1 ∧ s.getbit = .raised (s.raise .inputExhausted .inflate)) := by
  by_cases h : s.BitsLeft 1
  · exact .inl ⟨h, getbit_ok h⟩
  · exact .inr ⟨h, getbit_raised h⟩

/-! ### Output (41_inflate.md R175, R176) -/

/-- `emit` below the capacity. -/
theorem emit_below {s : State} (h : s.regs.rawLen ≠ s.regs.rawCap) (b : Byte) : s.emit b = .ok () (s.appendRaw b) := by
  rw [State.emit, if_neg h]

/-- `RAW_CAP` grown. -/
def State.grown (s : State) : State :=
  { s with regs := { s.regs with rawCap := reg (min (2 * s.regs.rawCap.toNat) s.params.rawMax) } }

/-- `emit` at the capacity, with room to grow. -/
theorem emit_grows {s : State} (h : s.regs.rawLen = s.regs.rawCap) (hm : s.regs.rawCap.toNat < s.params.rawMax) (b : Byte) :
    s.emit b = .ok () (s.grown.appendRaw b) := by
  rw [State.emit, if_pos h, State.grow, if_neg (by omega)]; rfl

/-- `emit` into a full buffer. -/
theorem emit_overflows {s : State} (h : s.regs.rawLen = s.regs.rawCap) (hm : s.params.rawMax ≤ s.regs.rawCap.toNat) (b : Byte) :
    s.emit b = .raised (s.raise .rawOverflow .inflate) := by
  rw [State.emit, if_pos h, State.grow, if_pos hm]; rfl

/-! ### The canonical form -/

/-- A write keeps every buffer canonical. -/
theorem writeBytes_memoryInv {s : State} (h : s.MemoryInv) (b : Buf) (i : Nat) (bs : List Byte) :
    (s.writeBytes b i bs).MemoryInv := by
  obtain ⟨h1, h2, h3, h4, h5, h6, h7, h8⟩ := h
  cases b
  · exact ⟨write_wf h1 i bs, h2, h3, h4, h5, h6, h7, h8⟩
  · exact ⟨h1, write_wf h2 i bs, h3, h4, h5, h6, h7, h8⟩
  · exact ⟨h1, h2, write_wf h3 i bs, h4, h5, h6, h7, h8⟩
  · exact ⟨h1, h2, h3, write_wf h4 i bs, h5, h6, h7, h8⟩
  · exact ⟨h1, h2, h3, h4, write_wf h5 i bs, h6, h7, h8⟩
  · exact ⟨h1, h2, h3, h4, h5, write_wf h6 i bs, h7, h8⟩
  · exact ⟨h1, h2, h3, h4, h5, h6, write_wf h7 i bs, h8⟩
  · exact ⟨h1, h2, h3, h4, h5, h6, h7, write_wf h8 i bs⟩

/-- The reset state's buffers are canonical. -/
theorem reset_memoryInv (p : Params) : (State.resetWith p).MemoryInv :=
  ⟨.nil, .nil, .nil, .nil, .nil, .nil, .nil, .nil⟩

/-! ### The pixels of a line (42_scanline.md R240) -/

/-- Everything `writePixels` can do besides bytes of `TILE`: nothing, or PALETTE_INDEX_RANGE. -/
theorem writePixels_cases : ∀ (n : Nat) (s : State) (col : Nat), ∃ m : Memory,
    s.writePixels n col = .ok () { s with buf := { s.buf with tile := m } } ∨
      s.writePixels n col = .raised (State.raise { s with buf := { s.buf with tile := m } } .paletteIndexRange .scanline)
  | 0, s, _ => ⟨s.buf.tile, .inl rfl⟩
  | n + 1, s, col => by
    rw [State.writePixels]
    cases s.pixel s.u2.cur col with
    | none => exact ⟨s.buf.tile, .inr rfl⟩
    | some px => exact writePixels_cases n (s.writeBytes .tile (s.lineIndex col) px.bytes) (col + 1)

/-! ### One step of the unit: the pieces of one element (10_state.md R40) -/

/-- A piece either reads a value and executes the instruction it is, or leaves what raising while reading left. -/
theorem piece_cases (s : State) (a : Await) :
    (∃ f w s', s.fetch a = .ok (f, w) s' ∧ s.piece a = s'.run f w) ∨ ∃ s', s.fetch a = .raised s' ∧ s.piece a = .next s' := by
  unfold State.piece
  cases h : s.fetch a with
  | ok v s' => exact .inl ⟨v.1, v.2, s', rfl, rfl⟩
  | raised s' => exact .inr ⟨s', rfl, rfl⟩

/-- A state with something left of its element is in BUSY, about to read it. -/
theorem phase_of_rest? {s : State} {b : Await} (h : s.rest? = some b) : s.phase = .busy b := by
  unfold State.rest? at h
  split at h <;> simp_all

/-- What every piece keeps, a whole element keeps. -/
theorem element_preserves {P : State → Prop} (keep : ∀ (s t : State) (a : Await), s.phase = .busy a → P s → s.piece a = .next t → P t) :
    ∀ (n : Nat) (s t : State) (a : Await), s.phase = .busy a → P s → s.element a n = .next t → P t
  | 0, s, t, a, ha, hs, h => keep s t a ha hs h
  | n + 1, s, t, a, ha, hs, h => by
    rw [State.element] at h
    split at h
    · rename_i u hu
      have hp := keep s u a ha hs hu
      split at h
      · rename_i b hb
        exact element_preserves keep n u t b (phase_of_rest? hb) hp h
      · obtain rfl := Host.Outcome.next.inj h; exact hp
    · cases h
    · cases h

end Sys2Proof.Machine
end

