-- ==== Sys2Proof/Tests/Slice0.lean ====
section
/-! SUPPORT. Tests: ill-formed terms are refused; words written out from the spec's encodings decode to their instructions; single
steps whose results come from the spec's vectors (95_test_vectors.md) or are worked out by hand from the cited rule; and for every
obligation with hypotheses a concrete state that meets them. -/

namespace Sys2Proof.Tests

open Sys2Proof Sys2Proof.Machine

set_option Elab.async false

/-! ### Small states -/

/-- An implementation with small buffers; `RAW_INIT_CAP` 2, `RAW_MAX` 8. -/
def smallParams : Params := { inMax := 64, rawMax := 8, rawInitCap := 2, pixMax := 4096, numerics := .exactReals }

/-- The small implementation after reset. -/
def fresh : State := State.resetWith smallParams

/-- `IN` holds these bytes, `IN_LEN` is their number. -/
def withIn (s : State) (bytes : List Byte) : State :=
  { s.writeBytes .inp 0 bytes with regs := { s.regs with inLen := BitVec.ofNat 32 bytes.length } }

/-- `RAW` holds these bytes, at most 8, all of the capacity in use. -/
def withRaw (s : State) (bytes : List Byte) : State :=
  { s.writeBytes .raw 0 bytes with
    regs := { s.regs with rawLen := BitVec.ofNat 32 bytes.length, rawCap := 8 }, valid := { s.valid with raw := true } }

/-- A unit is running and this element is next. -/
def running (s : State) (a : Await) : State := { s with phase := .busy a }

/-- The command has faulted. -/
def faulted (s : State) : State := { s with phase := .fault, regs := { s.regs with err := 0x00000107 } }

/-- The outcome is a next state with this property. -/
def nextIs (o : Host.Outcome State Machine.Fault Refusal) (p : State → Bool) : Bool :=
  match o with
  | .next t => p t
  | .fault _ => false
  | .refused _ => false

/-- What a fault entry leaves (60_exceptions.md R390). -/
def faultIs (o : Host.Outcome State Machine.Fault Refusal) (err : Word) : Bool :=
  nextIs o (fun t => t.phase = .fault && t.regs.err == err)

/-- A canvas and a tile of the same size `w` by `h`, all zero, the frame's rectangle covering them. -/
def framed (w h : Word) : State :=
  let n := 4 * w.toNat * h.toNat
  { (fresh.writeBytes .tile 0 (List.replicate n 0)).writeBytes .canvas 0 (List.replicate n 0) with
    regs := { fresh.regs with canvasW := w, canvasH := h, tileW := w, tileH := h, fW := w, fH := h },
    valid := { fresh.valid with tile := true, canvas := true } }

/-- RECON of a one-line gray 8-bit image of width `w` is at the line's filter byte. -/
def oneLine (fmt w : Word) (raw : List Byte) : State :=
  let s := withRaw fresh raw
  running { s with
    regs := { s.regs with fmt := fmt, fW := w, fH := 1 }, u2 := { s.u2 with prior := [0, 0, 0, 0, 0, 0, 0, 0] } } .scanline

def noImage : ImageArgs :=
  { w := 1, h := 1, fmt := 8, palette := [], trCtl := 0, key0 := 0, key1 := 0, key2 := 0, trns := [] }

/-! ### Well-formedness: an ill-formed term for each check -/

theorem test_wf_cmdReserved6To7 : Instr.wf (.cmdReserved6To7 5) = false ∧ Instr.wf (.cmdReserved6To7 8) = false ∧
    Instr.wf (.cmdReserved6To7 6) = true := by decide
theorem test_wf_cmdReserved12To15 : Instr.wf (.cmdReserved12To15 11) = false ∧ Instr.wf (.cmdReserved12To15 12) = true := by decide
theorem test_wf_frame_payload (p : List Byte) (h : p.length = 2 ^ 32) :
    Instr.wf (.frame { payload := p, off := 0, rect := ⟨0, 0, 1, 1⟩, ctl := 0 }) = false := by simp [Instr.wf, payloadOk, h]
theorem test_wf_still_payload (p : List Byte) (h : p.length = 2 ^ 32) :
    Instr.wf (.decodeStill { payload := p, image := noImage }) = false := by simp [Instr.wf, payloadOk, h]
theorem test_wf_still_palette :
    Instr.wf (.decodeStill { payload := [], image := { noImage with palette := List.replicate 257 ⟨0, 0, 0⟩ } }) = false := by
  decide +kernel
theorem test_wf_still_trns :
    Instr.wf (.decodeStill { payload := [], image := { noImage with trns := List.replicate 257 0 } }) = false := by
  decide +kernel
theorem test_wf_anim_payload (p : List Byte) (h : p.length = 2 ^ 32) :
    Instr.wf (.decodeAnim { frames := [⟨p, ⟨0, 0, 1, 1⟩, 0⟩], image := noImage }) = false := by simp [Instr.wf, payloadOk, h]
theorem test_wf_anim_palette :
    Instr.wf (.decodeAnim { frames := [], image := { noImage with palette := List.replicate 257 ⟨0, 0, 0⟩ } }) = false := by
  decide +kernel
theorem test_wf_llIllegal : Instr.wf (.llIllegal286To287 285) = false ∧ Instr.wf (.llIllegal286To287 288) = false ∧
    Instr.wf (.llIllegal286To287 287) = true := by decide
theorem test_wf_dIllegal : Instr.wf (.dIllegal30To31 29) = false ∧ Instr.wf (.dIllegal30To31 31) = true := by decide
theorem test_wf_filterIllegal : Instr.wf (.filterIllegal 4) = false ∧ Instr.wf (.filterIllegal 255) = true := by decide
theorem test_wf_blendReserved : Instr.wf (.blendReserved2To3 1) = false ∧ Instr.wf (.blendReserved2To3 3) = true := by decide

/-! ### Decoding: words written out from 30_encoding.md and 10_state.md R31 -/

/-- R100: `OP` in bits [3:0]; R141: the others are not decoded. -/
theorem test_decode_cmd : ∀ p ∈ [(0b0000, Instr.nop), (0b0001, .clear), (0b0010, .inflate), (0b0011, .recon), (0b0100, .canvasInit),
    (0b0101, .compose), (0b1000, .hashEnc), (0b1001, .hashDec), (0b1010, .hashAvg), (0b1011, .hashAspect),
    (0b0110, .cmdReserved6To7 6), (0b0111, .cmdReserved6To7 7), (0b1100, .cmdReserved12To15 12), (0b1111, .cmdReserved12To15 15),
    (0xFFFFFFF0, .nop)], (decode .cmd p.1).toOption = some p.2 := by decide

/-- R102: `BFINAL` is the first bit, `BTYPE` the next two, least significant first. -/
theorem test_decode_hdr : (decode .hdr 0b011).toOption = some (.hdr 1 1) ∧ (decode .hdr 0b100).toOption = some (.hdr 0 2) ∧
    (decode .body 0b001).toOption = some .stored ∧ (decode .body 0b011).toOption = some .fixed ∧
    (decode .body 0b100).toOption = some .dyn ∧ (decode .body 0b111).toOption = some .btypeIllegal ∧
    (decode .hdr 8).toOption = none := by decide

/-- R105, with the counts of PROG-3 (`HLIT` field 3, `HDIST` field 0, `HCLEN` field 14). -/
theorem test_decode_dyn : (decode .counts 0b1110_00000_00011).toOption = some (.dynCounts 3 0 14) ∧
    (decode .metaLength 0b010).toOption = some (.dynMetaLengths 2) ∧ (decode .codeLengths 0).toOption = some .dynCodeLengths ∧
    (decode .metaLength 8).toOption = none := by decide

/-- R107: symbols 0 to 18 of the meta alphabet. -/
theorem test_decode_cl : ∀ p ∈ [(0, Instr.cln 0), (15, .cln 15), (16, .cl16), (17, .cl17), (18, .cl18)],
    (decode .cl p.1).toOption = some p.2 ∧ (decode .cl 19).toOption = none := by decide

/-- R104, R108: literals, end of block, the length symbols, the two illegal symbols. -/
theorem test_decode_ll : ∀ p ∈ [(0, Instr.lit 0), (255, .lit 255), (256, .eob), (257, .len257), (258, .len258), (259, .len259),
    (260, .len260), (261, .len261), (262, .len262), (263, .len263), (264, .len264), (265, .len265), (266, .len266), (267, .len267),
    (268, .len268), (269, .len269), (270, .len270), (271, .len271), (272, .len272), (273, .len273), (274, .len274), (275, .len275),
    (276, .len276), (277, .len277), (278, .len278), (279, .len279), (280, .len280), (281, .len281), (282, .len282), (283, .len283),
    (284, .len284), (285, .len285), (286, .llIllegal286To287 286), (287, .llIllegal286To287 287)],
    (decode .ll p.1).toOption = some p.2 := by decide +kernel
theorem test_decode_ll_bound : (decode .ll 288).toOption = none := by decide +kernel

/-- R104, R109: the distance symbols and the two illegal ones. -/
theorem test_decode_d : ∀ p ∈ [(0, Instr.dist0), (1, .dist1), (2, .dist2), (3, .dist3), (4, .dist4), (5, .dist5), (6, .dist6), (7, .dist7),
    (8, .dist8), (9, .dist9), (10, .dist10), (11, .dist11), (12, .dist12), (13, .dist13), (14, .dist14), (15, .dist15), (16, .dist16),
    (17, .dist17), (18, .dist18), (19, .dist19), (20, .dist20), (21, .dist21), (22, .dist22), (23, .dist23), (24, .dist24), (25, .dist25),
    (26, .dist26), (27, .dist27), (28, .dist28), (29, .dist29), (30, .dIllegal30To31 30), (31, .dIllegal30To31 31)],
    (decode .d p.1).toOption = some p.2 := by decide +kernel
theorem test_decode_d_bound : (decode .d 32).toOption = none := by decide +kernel

/-- R113: all eight bits of the filter byte. -/
theorem test_decode_filter : ∀ p ∈ [(0, Instr.filterNone), (1, .filterSub), (2, .filterUp), (3, .filterAverage), (4, .filterPaeth),
    (5, .filterIllegal 5), (0x84, .filterIllegal 0x84), (255, .filterIllegal 255)], (decode .filter p.1).toOption = some p.2 := by decide

/-- 10_state.md R31: `BLEND` in bits [5:4], `DISPOSE` in bits [1:0], the other bits ignored. -/
theorem test_decode_modes : (decode .blend 0b00_0010).toOption = some .blendSource ∧
    (decode .blend 0b01_0000).toOption = some .blendOver ∧ (decode .blend 0b10_0000).toOption = some (.blendReserved2To3 2) ∧
    (decode .blend 0xFFFFFFFF).toOption = some (.blendReserved2To3 3) ∧ (decode .dispose 0b01_0000).toOption = some .disposeNone ∧
    (decode .dispose 0b01).toOption = some .disposeClearToBackground ∧ (decode .dispose 0b10).toOption = some .disposeRestorePrevious ∧
    (decode .dispose 0b11).toOption = some .disposeReserved3 ∧ (decode .dispose 0b1100).toOption = some .disposeNone := by decide

/-! ### Single steps: commands (95_test_vectors.md part 2) -/

/-- CMD-1. -/
theorem test_nop : nextIs (exec .nop fresh) (fun t => t.statusWord == 2 && t.regs.err == 0) = true := by decide +kernel
/-- CMD-2: ignored in FAULT. -/
theorem test_nop_in_fault : nextIs (exec .nop (faulted fresh)) (fun t => t.statusWord == 3 && t.regs.err == 0x107) = true := by
  decide +kernel
/-- CMD-2, CMD-17: CLEAR drops every flag. -/
theorem test_clear : nextIs (exec .clear (faulted (withRaw fresh [5, 1]))) (fun t => t.statusWord == 0 && t.regs.err == 0) = true := by
  decide +kernel
/-- 40_commands.md R140: CLEAR is ignored in BUSY. -/
theorem test_clear_busy : nextIs (exec .clear (running fresh .header)) (fun t => t.statusWord == 1) = true := by decide +kernel
/-- CMD-2. -/
theorem test_cmdReserved6To7 : faultIs (exec (.cmdReserved6To7 6) fresh) 0x00000107 = true := by decide +kernel
/-- CMD-4. -/
theorem test_cmdReserved12To15 : faultIs (exec (.cmdReserved12To15 15) fresh) 0x00000107 = true := by decide +kernel
/-- CMD-7. -/
theorem test_inflate_range :
    faultIs (exec .inflate { fresh with regs := { fresh.regs with inLen := 1, inOff := 2 } }) 0x00010307 = true := by decide +kernel
/-- 40_commands.md R147: from bit 16 with `IN_OFF = 2`. -/
theorem test_inflate_starts : nextIs (exec .inflate { fresh with regs := { fresh.regs with inLen := 3, inOff := 2, rawLen := 1 } })
    (fun t => t.regs.ipos == 16 && t.regs.rawLen == 0 && t.regs.rawCap == 2 && t.phase = .busy .header) = true := by decide +kernel
/-- CMD-5. -/
theorem test_recon_not_valid : faultIs (exec .recon fresh) 0x00020207 = true := by decide +kernel
/-- CMD-23. -/
theorem test_recon_short :
    faultIs (exec .recon { withRaw fresh [0] with regs := { (withRaw fresh [0]).regs with fmt := 8, fW := 1, fH := 1 } })
      0x00020205 = true := by decide +kernel
/-- CMD-14. -/
theorem test_canvasInit : nextIs (exec .canvasInit { fresh with regs := { fresh.regs with imgW := 2, imgH := 1 } })
    (fun t => t.statusWord == 0x42 && t.bytesAt .canvas 0 8 == [0, 0, 0, 0, 0, 0, 0, 0] && t.regs.canvasW == 2) = true := by
  decide +kernel
/-- CMD-13. -/
theorem test_canvasInit_range :
    faultIs (exec .canvasInit { fresh with regs := { fresh.regs with imgW := 0, imgH := 3 } }) 0x00040307 = true := by decide +kernel
/-- CMD-6. -/
theorem test_compose_not_valid : faultIs (exec .compose fresh) 0x00040207 = true := by decide +kernel
/-- CMD-18: 2 + 2 > 3. -/
theorem test_compose_rect :
    faultIs (exec .compose { framed 2 2 with regs := { (framed 2 2).regs with canvasW := 3, fX := 2 } }) 0x00040407 = true := by
  decide +kernel
/-- CMD-9. -/
theorem test_hashEnc_dim : faultIs (exec .hashEnc { fresh with regs := { fresh.regs with hW := 101, hH := 50 } }) 0x00050104 = true := by
  decide +kernel
/-- HASH-6's first pixel: one transparent pixel has the header `00 08 82 05 00`, alpha byte 0. -/
theorem test_hashEnc : nextIs (exec .hashEnc
    { withIn fresh [9, 9, 9, 0] with regs := { (withIn fresh [9, 9, 9, 0]).regs with hW := 1, hH := 1 } })
    (fun t => t.bytesAt .out 0 6 == [0x00, 0x08, 0x82, 0x05, 0x00, 0x00] && t.regs.outLen == 25 && t.statusWord == 0x102) = true := by
  decide +kernel
/-- CMD-26. -/
theorem test_hashDec_short :
    faultIs (exec .hashDec (withIn fresh ([0x1D, 0xCB, 2, 7, 0] ++ List.replicate 18 0x88))) 0x00050106 = true := by decide +kernel
/-- CMD-25. -/
theorem test_hashAvg : nextIs (exec .hashAvg (withIn fresh [0x1D, 0xCB, 2, 0, 0])) (fun t =>
    t.statusWord == 0x202 && t.regs.res0 == 299 && t.regs.res1 == 149 && t.regs.res2 == 74 && t.regs.res3 == 15) = true := by
  decide +kernel
/-- CMD-27. -/
theorem test_hashAspect : nextIs (exec .hashAspect (withIn fresh [0x1D, 0xCB, 0x82, 7, 0]))
    (fun t => t.regs.res0 == 7 && t.regs.res1 == 5 && t.regs.res2 == 0 && t.regs.res3 == 0) = true := by decide +kernel
/-- HASH-6's hash decodes to pixels `03 00 00 00` (one pixel of it). -/
theorem test_decodePixel : decodePixel exactReals
    (spectraOf exactReals (hashHeader 0x820800 5) ([0x00, 0x08, 0x82, 0x05, 0x00, 0x00] ++ List.replicate 19 0x88))
    32 32 31 31 = { r := 3, g := 0, b := 0, a := 0 } := by decide +kernel
/-- Under another `NUMERICS` the hash is a free value, and the command completes all the same. -/
theorem test_hashEnc_other : ∃ t, exec .hashEnc { withIn fresh [9, 9, 9, 0] with
      params := { smallParams with numerics := .other }, regs := { (withIn fresh [9, 9, 9, 0]).regs with hW := 1, hH := 1 } } = .next t ∧
    t.statusWord = 0x102 := ⟨_, rfl, rfl⟩

/-! ### Single steps: U1 (95_test_vectors.md part 3.1) -/

/-- INF-2: `4B` begins `1 10`: `BFINAL` 1, `BTYPE` 1; the fixed tables are loaded in the same step. -/
theorem test_step_hdr : nextIs (step (running (withIn fresh [0x4B, 4, 1, 0]) .header))
    (fun t => t.u1.bfinal == 1 && t.u1.btype == 1 && t.regs.ipos == 3 && t.u1.llLen == fixedLl && t.phase = .busy .llSymbol) = true := by
  decide +kernel
/-- 41_inflate.md R187's example `05 00 92 00`: the header and then the whole dynamic header are two steps; OVERSUBSCRIBED. -/
theorem test_step_dynamic : nextIs (step (running (withIn fresh [5, 0, 0x92, 0]) .header))
      (fun t => t.phase = .busy .body && t.u1.btype == 2 && faultIs (step t) 0x00010703) = true := by decide +kernel
/-- 41_inflate.md R190's example `05 00 02 24`: the third step is the meta symbol 16. -/
theorem test_step_meta : nextIs (step (running (withIn fresh [5, 0, 2, 0x24]) .header))
      (fun t => nextIs (step t) (fun u => u.phase = .busy .clSymbol && u.regs.ipos == 29 && faultIs (step u) 0x00010803)) = true := by
  decide +kernel
/-- 41_inflate.md R180: one bit is left; `BFINAL` is latched before the fault. -/
theorem test_step_hdr_one_bit : nextIs (step (running
    { withIn fresh [0x80] with regs := { (withIn fresh [0x80]).regs with ipos := 7 } } .header))
    (fun t => t.phase = .fault && t.u1.bfinal == 1) = true := by decide +kernel
/-- A length symbol and its distance are one step: INF-2f's `LEN 257=3 DIST 0=1`, codes `0000001 00000`. -/
theorem test_step_match : nextIs (step (running
    { withIn (withRaw fresh [0x5A]) [0b01000000, 0] with u1 := { fresh.u1 with llLen := fixedLl, dLen := fixedD } } .llSymbol))
    (fun t => t.bytesAt .raw 0 4 == [0x5A, 0x5A, 0x5A, 0x5A] && t.regs.ipos == 12 && t.phase = .busy .llSymbol) = true := by
  decide +kernel
/-- CMD-8: no bit left. -/
theorem test_step_hdr_exhausted : faultIs (step (running fresh .header)) 0x00010603 = true := by decide +kernel
/-- INF-1b: `NLEN` is not compared. -/
theorem test_stored : nextIs (exec .stored
    { withIn fresh [1, 2, 0, 0, 0, 0x41, 0x42] with regs := { (withIn fresh [1, 2, 0, 0, 0, 0x41, 0x42]).regs with ipos := 3 } })
    (fun t => t.bytesAt .raw 0 2 == [0x41, 0x42] && t.regs.ipos == 56 && t.regs.rawLen == 2 && t.phase = .busy .header) = true := by
  decide +kernel
/-- INF-2: `@3 LIT 61` is the code `10010001`. -/
theorem test_step_lit : nextIs (step (running
    { withIn fresh [0x4B, 4, 1, 0] with
      regs := { (withIn fresh [0x4B, 4, 1, 0]).regs with ipos := 3 }, u1 := { fresh.u1 with llLen := fixedLl, dLen := fixedD } }
    .llSymbol)) (fun t => t.bytesAt .raw 0 1 == [0x61] && t.regs.ipos == 11) = true := by decide +kernel
/-- 41_inflate.md R184. -/
theorem test_fixed : nextIs (exec .fixed fresh) (fun t =>
    t.u1.llLen.getD 143 0 == 8 && t.u1.llLen.getD 144 0 == 9 && t.u1.llLen.getD 256 0 == 7 && t.u1.llLen.getD 280 0 == 8 &&
    t.phase = .busy .llSymbol) = true := by decide +kernel
theorem test_dyn : nextIs (exec .dyn fresh) (fun t => t.phase = .busy .counts) = true := by decide +kernel
/-- CMD-16. -/
theorem test_btypeIllegal : faultIs (exec .btypeIllegal fresh) 0x00010103 = true := by decide +kernel
/-- INF-3: `HLIT = 259`, `HDIST = 1`, `HCLEN = 18`. -/
theorem test_dynCounts : nextIs (exec (.dynCounts 2 0 14) fresh)
    (fun t => t.u1.hlit == 259 && t.u1.hdist == 1 && t.u1.hclen == 18) = true := by decide +kernel
/-- 30_encoding.md R106: the third length belongs to symbol 18. -/
theorem test_dynMetaLengths : nextIs (exec (.dynMetaLengths 2) { fresh with u1 := { fresh.u1 with metaIdx := 2, hclen := 18 } })
    (fun t => t.u1.clLen.getD 18 0 == 2 && t.u1.metaIdx == 3) = true := by decide +kernel
theorem test_dynCodeLengths : nextIs (exec .dynCodeLengths fresh) (fun t => t.u1.seq == [] && t.phase = .busy .clSymbol) = true := by
  decide +kernel
/-- A sequence being read: 257 + 1 lengths, `seq` of them known. -/
def reading (seq : List (BitVec 4)) (inp : List Byte) : State :=
  { withIn fresh inp with u1 := { fresh.u1 with hlit := 257, hdist := 1, hclen := 4, seq := seq } }
theorem test_cln : nextIs (exec (.cln 2) (reading [4] [])) (fun t => t.u1.seq == [4, 2]) = true := by decide +kernel
/-- PROG-3 `@104 CL16 +0`: three repeats of 4. -/
theorem test_cl16 : nextIs (exec .cl16 (reading [2, 4] [0])) (fun t => t.u1.seq == [2, 4, 4, 4, 4] && t.regs.ipos == 2) = true := by
  decide +kernel
/-- 41_inflate.md R190: no length yet. -/
theorem test_cl16_no_prev : faultIs (exec .cl16 (reading [] [0])) 0x00010803 = true := by decide +kernel
/-- PROG-3 `@75 CL17 +2`: bits `010`, 5 zeros. -/
theorem test_cl17 : nextIs (exec .cl17 (reading [2] [0b010])) (fun t => t.u1.seq == [2, 0, 0, 0, 0, 0] && t.regs.ipos == 3) = true := by
  decide +kernel
/-- INF-3 `@91 CL18 +9`: bits `1001000`, 20 zeros. -/
theorem test_cl18 : nextIs (exec .cl18 (reading [] [0b0001001])) (fun t => t.u1.seq == List.replicate 20 0 && t.regs.ipos == 7) = true := by
  decide +kernel
theorem test_lit_grows : nextIs (exec (.lit 7) { withRaw fresh [5, 6] with regs := { (withRaw fresh [5, 6]).regs with rawCap := 2 } })
    (fun t => t.bytesAt .raw 0 3 == [5, 6, 7] && t.regs.rawCap == 4 && t.regs.rawLen == 3) = true := by decide +kernel
/-- 41_inflate.md R176: `RAW_MAX` reached. -/
theorem test_lit_overflow : faultIs (exec (.lit 7) (withRaw fresh [1, 2, 3, 4, 5, 6, 7, 8])) 0x00010108 = true := by decide +kernel
theorem test_eob_final : nextIs (exec .eob { fresh with u1 := { fresh.u1 with bfinal := 1 } }) (fun t => t.statusWord == 0x12) = true := by
  decide +kernel
/-- INF-2e `LEN 284(+31)=258`; INF-2c `LEN 266(+1)=14`; INF-2 `LEN 258=4`. -/
theorem test_len : nextIs (exec .len284 (withIn fresh [31])) (fun t => t.u1.matchLen == 258 && t.regs.ipos == 5) = true ∧
    nextIs (exec .len266 (withIn fresh [1])) (fun t => t.u1.matchLen == 14) = true ∧
    nextIs (exec .len258 fresh) (fun t => t.u1.matchLen == 4 && t.phase = .busy .dSymbol) = true := by decide +kernel
/-- A match of 3 bytes is pending. -/
def matching (raw inp : List Byte) : State :=
  let s := withIn (withRaw fresh raw) inp
  { s with u1 := { s.u1 with matchLen := 3 } }
/-- INF-2f: `LEN 257=3 DIST 0=1` after `5A`. -/
theorem test_dist0 : nextIs (exec .dist0 (matching [0x5A] [])) (fun t => t.bytesAt .raw 0 4 == [0x5A, 0x5A, 0x5A, 0x5A] && t.regs.rawLen == 4) =
    true := by decide +kernel
/-- INF-F4's cause: the distance is beyond the output. -/
theorem test_dist_too_far : faultIs (exec .dist1 (matching [0x5A] [])) 0x00010303 = true := by decide +kernel
/-- Distance 5 with `DIST_4` and an extra bit 0. -/
theorem test_dist4 : nextIs (exec .dist4 (matching [1, 2, 3, 4, 5] [0])) (fun t => t.bytesAt .raw 5 3 == [1, 2, 3]) = true := by
  decide +kernel
theorem test_llIllegal : faultIs (exec (.llIllegal286To287 286) fresh) 0x00010403 = true := by decide +kernel
theorem test_dIllegal : faultIs (exec (.dIllegal30To31 30) fresh) 0x00010503 = true := by decide +kernel

/-! ### Single steps: U2, U3, U4 -/

/-- PROG-3: Sub, data `07 00 00`. -/
theorem test_filterSub : nextIs (exec .filterSub (oneLine 8 3 [1, 7, 0, 0]))
    (fun t => t.bytesAt .tile 0 12 == [7, 7, 7, 255, 7, 7, 7, 255, 7, 7, 7, 255] && t.regs.tileW == 3 && t.statusWord == 0x32) = true := by
  decide +kernel
theorem test_filterNone : nextIs (exec .filterNone (oneLine 8 1 [0, 9])) (fun t => t.bytesAt .tile 0 4 == [9, 9, 9, 255]) = true := by
  decide +kernel
/-- A line of two gray pixels below the line `0A 14`. -/
def below (raw : List Byte) : State := { oneLine 8 2 raw with u2 := { fresh.u2 with prior := [10, 20] } }
/-- 42_scanline.md R249 to R251 by hand: Up `1+10, 2+20`; Average `1+5, 2+(6+20)/2`; Paeth `1+10, 2+paeth(11, 20, 10) = 2+20`. -/
theorem test_filterUp : nextIs (exec .filterUp (below [2, 1, 2])) (fun t => t.u2.cur == [11, 22]) = true := by decide +kernel
theorem test_filterAverage : nextIs (exec .filterAverage (below [3, 1, 2])) (fun t => t.u2.cur == [6, 15]) = true := by decide +kernel
theorem test_filterPaeth : nextIs (exec .filterPaeth (below [4, 1, 2])) (fun t => t.u2.cur == [11, 22]) = true := by decide +kernel
/-- An index beyond the palette at the second pixel: the first has been written (42_scanline.md R240, R259). -/
theorem test_palette_range : nextIs (exec .filterNone { oneLine 0x301 2 [0, 0x40] with
    regs := { (oneLine 0x301 2 [0, 0x40]).regs with palN := 1 }, buf := { (oneLine 0x301 2 [0, 0x40]).buf with pal := [(0, 7), (1, 8), (2, 9)] } })
    (fun t => t.phase = .fault && t.regs.err == 0x00020305 && t.bytesAt .tile 0 4 == [7, 8, 9, 255] && t.buf.tile.length == 4) = true := by
  decide +kernel
/-- CMD-17. -/
theorem test_filterIllegal : faultIs (step (oneLine 8 1 [5, 1])) 0x00020105 = true := by decide +kernel
/-- COMP-1, first case. -/
theorem test_over : overPixel { r := 0, g := 0, b := 0xFF, a := 0x80 } { r := 0xFF, g := 0, b := 0, a := 0xFF } =
    { r := 0x7F, g := 0, b := 0x80, a := 0xFF } := by decide +kernel
/-- A canvas pixel behind a tile pixel, `BLEND` next. -/
def onePixel (src dst : List Byte) : State := running (((framed 1 1).writeBytes .tile 0 src).writeBytes .canvas 0 dst) .blend
/-- COMP-2. -/
theorem test_blendSource : nextIs (exec .blendSource (onePixel [0x0A, 0x14, 0x1E, 0] [255, 255, 255, 255]))
    (fun t => t.bytesAt .out 0 4 == [0x0A, 0x14, 0x1E, 0] && t.regs.frameCnt == 1 && t.regs.outLen == 4) = true := by decide +kernel
/-- COMP-1, fourth case. -/
theorem test_blendOver : nextIs (exec .blendOver (onePixel [0xC8, 0x64, 0x32, 0x80] [0x64, 0xC8, 0xFA, 0x40]))
    (fun t => t.bytesAt .out 0 4 == [0xB4, 0x77, 0x59, 0x9F] && t.bytesAt .canvas 0 4 == [0xB4, 0x77, 0x59, 0x9F]) = true := by
  decide +kernel
/-- CMD-20's cause. -/
theorem test_blendReserved : faultIs (exec (.blendReserved2To3 2) fresh) 0x00040507 = true := by decide +kernel
theorem test_disposeNone : nextIs (exec .disposeNone (onePixel [1, 1, 1, 1] [2, 3, 4, 5]))
    (fun t => t.bytesAt .canvas 0 4 == [2, 3, 4, 5] && t.statusWord == 0x162) = true := by decide +kernel
/-- 44_compositor.md R299. -/
theorem test_disposeClear : nextIs (exec .disposeClearToBackground (onePixel [1, 1, 1, 1] [2, 3, 4, 5]))
    (fun t => t.bytesAt .canvas 0 4 == [0, 0, 0, 0]) = true := by decide +kernel
/-- 44_compositor.md R300. -/
theorem test_disposeRestore : nextIs (exec .disposeRestorePrevious ((onePixel [1, 1, 1, 1] [2, 3, 4, 5]).writeBytes .save 0 [6, 7, 8, 9]))
    (fun t => t.bytesAt .canvas 0 4 == [6, 7, 8, 9] && t.valid.save == false) = true := by decide +kernel
theorem test_disposeReserved : faultIs (exec .disposeReserved3 fresh) 0x00040507 = true := by decide +kernel

/-! ### Single steps: pseudo-commands (40_commands.md R155 to R157) -/

def someFrame : FrameArgs := { payload := [3, 0], off := 0, rect := ⟨0, 0, 1, 1⟩, ctl := 0 }
/-- R155: eleven writes and a read of `OUT`; a stop after each of the three commands. -/
theorem test_frame : nextIs (exec (.frame someFrame) fresh)
    (fun t => t.script.length == 15 && t.script.head? == some ⟨false, .writeBuf .inp 0 [3, 0]⟩) = true := by decide +kernel
/-- R156: `IMG_W` first, then eleven more items of CANVAS_INIT's part, then one frame. -/
theorem test_decodeStill : nextIs (exec (.decodeStill { payload := [3, 0], image := noImage }) fresh)
    (fun t => t.script.length == 27 && t.script.head? == some ⟨false, .writeReg 8 1⟩) = true := by decide +kernel
/-- R157: two frames. -/
theorem test_decodeAnim : nextIs (exec (.decodeAnim { frames := [⟨[3, 0], ⟨0, 0, 1, 1⟩, 0⟩, ⟨[3, 0], ⟨0, 0, 1, 1⟩, 1⟩], image := noImage }) fresh)
    (fun t => t.script.length == 42) = true := by decide +kernel

/-! ### Witnesses: states and operands that meet the hypotheses of the obligations, clause by clause -/

theorem witness_DecodeOfEncode : Instr.wf (.dynCounts 31 31 15) = true ∧ encode (.dynCounts 31 31 15) = some (.counts, 2 ^ 14 - 1) ∧
    Instr.wf (.frame someFrame) = true ∧ encode (.frame someFrame) = none := by decide
theorem witness_EncodeOfDecode : (decode .d 31).toOption = some (.dIllegal30To31 31) ∧
    (decode .ll 287).toOption = some (.llIllegal286To287 287) ∧ (decode .cmd (2 ^ 32 - 1)).toOption = some (.cmdReserved12To15 15) ∧
    Format.ll ∈ [Format.hdr, .counts, .metaLength, .codeLengths, .cl, .ll, .d, .filter] := by decide +kernel
theorem witness_CommandWordIsLowFourBits : 12 ≤ (12 : BitVec 4).toNat ∧ 12 ≤ (15 : BitVec 4).toNat := by decide

/-- The clauses of StepRunsInstruction: an element of one piece that is read, with an empty script and with a waiting action; a piece with
something left of its element; a piece that raises; an early action in BUSY and one outside BUSY, of each kind; nothing to do. -/
theorem witness_StepRunsInstruction_element : (below [4, 1, 2]).Undisturbed ∧ (below [4, 1, 2]).phase = .busy .scanline ∧
    (below [4, 1, 2]).fetch .scanline = .ok (.filter, 4) (below [4, 1, 2]) ∧ decode .filter 4 = .ok .filterPaeth ∧
    nextIs (exec .filterPaeth (below [4, 1, 2])) (fun t => t.rest? == none) = true :=
  ⟨.inl rfl, rfl, rfl, rfl, by decide +kernel⟩
theorem witness_StepRunsInstruction_waiting : ({ running fresh .codeLengths with script := [⟨false, .tick⟩] } : State).Undisturbed ∧
    State.fetch { running fresh .codeLengths with script := [⟨false, .tick⟩] } .codeLengths =
      .ok (.codeLengths, 0) { running fresh .codeLengths with script := [⟨false, .tick⟩] } := ⟨.inr ⟨_, _, rfl, rfl⟩, rfl⟩
theorem witness_StepRunsInstruction_rest :
    nextIs ((running (withIn fresh [7]) .header).piece .header) (fun t => t.rest? == some .body) = true ∧
    nextIs ((running (withIn fresh [5]) .header).piece .header) (fun t => t.rest? == none) = true ∧
    nextIs (exec .len258 fresh) (fun t => t.rest? == some .dSymbol) = true := by decide +kernel
theorem witness_StepRunsInstruction_raised : (running fresh .header).script = [] ∧ (running fresh .header).phase = .busy .header ∧
    (running fresh .header).fetch .header = .raised ((running fresh .header).raise .inputExhausted .inflate) := ⟨rfl, rfl, rfl⟩
theorem witness_StepRunsInstruction_action :
    (∃ item rest, ({ running fresh .header with script := [⟨true, .writeReg 0 2⟩] } : State).script = item :: rest ∧ item.early = true ∧
      item.op = .writeReg 0 2 ∧ decode .cmd (2 : Word).toNat = .ok .inflate) ∧
    (∃ item rest, ({ fresh with script := [⟨false, .frame someFrame⟩] } : State).script = item :: rest ∧
      fresh.phase.isBusy = false ∧ item.op = .frame someFrame) ∧
    (∃ item rest, ({ fresh with script := [⟨false, .decodeStill ⟨[3, 0], noImage⟩⟩] } : State).script = item :: rest ∧
      item.op = .decodeStill ⟨[3, 0], noImage⟩) ∧
    (∃ item rest, ({ fresh with script := [⟨false, .decodeAnim ⟨[], noImage⟩⟩] } : State).script = item :: rest ∧
      item.op = .decodeAnim ⟨[], noImage⟩) ∧ fresh.script = [] :=
  ⟨⟨_, _, rfl, rfl, rfl, rfl⟩, ⟨_, _, rfl, rfl, rfl⟩, ⟨_, _, rfl, rfl⟩, ⟨_, _, rfl, rfl⟩, rfl⟩

theorem witness_ResetState : smallParams.Ok ∧ Params.default.Ok ∧
    ∃ item rest, ({ running fresh .llSymbol with script := [⟨true, .reset⟩] } : State).script = item :: rest ∧ item.early = true ∧
      item.op = .reset := ⟨by decide, by decide +kernel, _, _, rfl, rfl, rfl⟩
theorem witness_CommandWriteByPhase : (running fresh .llSymbol).phase = .busy .llSymbol ∧ (faulted fresh).phase = .fault ∧
    fresh.Ready ∧ ({ fresh with phase := .done } : State).Ready ∧ (faulted fresh).phase.isBusy = false := by decide
theorem witness_FaultIsLeftOnlyByClearOrReset : (faulted fresh).phase = .fault ∧
    nextIs (step { faulted fresh with script := [⟨false, .writeReg 0 0xF1⟩] }) (fun t => t.phase = .idle) = true ∧
    nextIs (step { faulted fresh with script := [⟨false, .reset⟩] }) (fun t => t.phase = .idle) = true := by decide +kernel
theorem witness_OpcodeDecode : (0xFFFFFFF5 : Word).toNat % 16 = (5 : Word).toNat % 16 ∧ fresh.Ready ∧
    (6 : Word).toNat % 16 ∈ [6, 7, 12, 13, 14, 15] ∧ (0xF : Word).toNat % 16 ∈ [6, 7, 12, 13, 14, 15] := by decide
/-- Writes, reads with and without a specified value, and a due action of each kind; the last byte of `IN` and the one after it. -/
theorem witness_HostRegisterAccess : fresh.phase.isBusy = false ∧ (running fresh .header).phase.isBusy = true ∧
    (0x02 ∉ [0x03, 0x04, 0x08, 0x09, 0x0A, 0x0B, 0x0C, 0x0D, 0x0E, 0x0F, 0x10, 0x11, 0x12, 0x13, 0x14, 0x15, 0x16]) ∧
    (0x02 ∉ [0x05, 0x06, 0x07, 0x17, 0x18, 0x19, 0x1A, 0x1B, 0x1C, 0x1D, 0x1E, 0x1F, 0x20, 0x21, 0x22]) ∧
    63 + ([1] : List Byte).length ≤ fresh.params.capacity .inp ∧ fresh.params.capacity .inp < 64 + ([1] : List Byte).length ∧
    (0x06 ∈ [0x06, 0x07] ∧ true = (fresh.pristine || fresh.valid.raw)) ∧
    (0x22 ∈ [0x1E, 0x21, 0x22] ∧ false = ((fresh.openDest .canvas).pristine || (fresh.openDest .canvas).valid.canvas)) ∧
    (0x05 = 0x05 ∧ true = fresh.iposKnown) := by decide
theorem witness_HostRegisterAccess_action :
    (∃ item rest, ({ fresh with script := [⟨false, .writeReg 3 7⟩] } : State).script = item :: rest ∧ fresh.phase.isBusy = false ∧
      item.op = .writeReg 3 7 ∧ 3 ≠ 0) ∧
    (∃ item rest, ({ running fresh .header with script := [⟨true, .readBuf .out 4096 1⟩] } : State).script = item :: rest ∧
      item.early = true ∧ item.op = .readBuf .out 4096 1 ∧ (running fresh .header).phase.isBusy = true) ∧
    (∃ item rest, ({ fresh with script := [⟨false, .writeBuf .inp 0 [1]⟩] } : State).script = item :: rest ∧
      item.op = .writeBuf .inp 0 [1]) ∧
    (∃ item rest, ({ fresh with script := [⟨false, .readReg 1⟩] } : State).script = item :: rest ∧ item.op = .readReg 1) :=
  ⟨⟨_, _, rfl, rfl, rfl, by decide⟩, ⟨_, _, rfl, rfl, rfl, rfl⟩, ⟨_, _, rfl, rfl⟩, ⟨_, _, rfl, rfl⟩⟩
/-- `OUT[0 .. OUT_LEN)` of a state with one byte in `OUT`: the byte is read. The stop beyond `PIX_MAX` is in witness_StepNeverRefuses. -/
theorem witness_HostRegisterAccess_readOut :
    let s : State := { fresh.writeBytes .out 0 [7] with
      regs := { fresh.regs with outLen := 1 }, valid := { fresh.valid with out := true }, script := [⟨false, .readOut⟩] }
    s.phase.isBusy = false ∧ (s.hostReadReg 0x17).1.toNat ≤ s.params.pixMax ∧
      nextIs (step s) (fun t => t.hostLog == s.hostLog ++ [.bytes .out 0 [7]]) = true := by decide +kernel
/-- 10_state.md R36: `IPOS` reads 0 after CANVAS_INIT, though `RAW_LEN` is unspecified by then; after a fault of INFLATE it has no value. -/
theorem test_ipos_read : nextIs (exec .canvasInit { fresh with regs := { fresh.regs with imgW := 2, imgH := 1 } })
      (fun t => t.hostReadReg 5 = (0, t) && t.iposKnown) = true ∧
    nextIs (exec .inflate fresh) (fun t => nextIs (step t) (fun u => u.phase = .fault && !u.regSpecified 5)) = true := by decide +kernel
/-- 20_memory.md R80: outside BUSY an unspecified byte of `TILE` is the same at each read and the read changes nothing; a RECON in between
changes it. -/
theorem test_read_idempotent : (fresh.hostReadBytes .tile 3 1).2 = fresh ∧
    (fresh.hostReadBytes .tile 3 1).1 = [Config.unspecifiedByte 0 0 .tile 3] ∧
    ((fresh.openDest .tile).complete .out |>.hostReadBytes .tile 3 1).1 = [Config.unspecifiedByte 0 1 .tile 3] := ⟨rfl, rfl, rfl⟩
/-- 70_reset_and_hazards.md R420: a read in BUSY beyond the capacity returns an unspecified byte and does not stop. -/
theorem test_busy_read : nextIs (step { running fresh .scanline with script := [⟨true, .readBuf .out 4096 1⟩] })
    (fun t => t.freeCtr == 1 && t.hostLog.length == 1) = true := by decide +kernel

/-! U1 -/

/-- `IN_OFF = IN_LEN = IN_MAX` is admitted; one more is not. -/
theorem witness_InflateStarts :
    let s : State := { fresh with regs := { fresh.regs with inLen := 64, inOff := 64 } }
    let t : State := { fresh with regs := { fresh.regs with inLen := 65 } }
    s.Ready ∧ s.regs.inOff.toNat ≤ s.regs.inLen.toNat ∧ s.regs.inLen.toNat ≤ s.params.inMax ∧
      t.Ready ∧ ¬(t.regs.inOff.toNat ≤ t.regs.inLen.toNat ∧ t.regs.inLen.toNat ≤ t.params.inMax) := by decide +kernel

/-- A stream of one byte with `n` bits left. -/
def bitsLeft (n : Word) : State := { withIn fresh [0xA5] with regs := { (withIn fresh [0xA5]).regs with ipos := 8 - n } }

/-- The last three bits of `A5` are `101`, of type 2; three are left in the one state, two and none in the others. -/
theorem witness_HeaderStep : (running (bitsLeft 3) .header).script = [] ∧ (running (bitsLeft 3) .header).phase = .busy .header ∧
    (running (bitsLeft 3) .header).StreamOk ∧ (running (bitsLeft 3) .header).BitsLeft 3 ∧
    (running (bitsLeft 3) .header).streamField ((running (bitsLeft 3) .header).regs.ipos.toNat + 1) 2 ∈ [0, 2] ∧
    (running (bitsLeft 2) .header).StreamOk ∧ ¬ (running (bitsLeft 2) .header).BitsLeft 3 ∧ (running (bitsLeft 2) .header).BitsLeft 1 ∧
    (running (bitsLeft 0) .header).StreamOk ∧ ¬ (running (bitsLeft 0) .header).BitsLeft 1 := by decide +kernel
theorem witness_BlockBodiesStart :
    let fixed := running (withIn fresh [0x4B]) .header
    let illegal := running (withIn fresh [7]) .header
    fixed.script = [] ∧ fixed.phase = .busy .header ∧ fixed.StreamOk ∧ fixed.BitsLeft 3 ∧
      fixed.streamField (fixed.regs.ipos.toNat + 1) 2 = 1 ∧ illegal.StreamOk ∧ illegal.BitsLeft 3 ∧
      illegal.streamField (illegal.regs.ipos.toNat + 1) 2 = 3 := by decide +kernel
theorem witness_DynCountsStep :
    let s := running (withIn fresh [2, 0x0E]) .counts
    s.StreamOk ∧ s.BitsLeft 14 ∧ (running (bitsLeft 8) .counts).StreamOk ∧
      ¬ (running (bitsLeft 8) .counts).BitsLeft 14 := by decide +kernel

/-- The last of `n` meta code lengths, the others all `l`. -/
def lastMeta (n : Nat) (l : BitVec 3) : State :=
  { fresh with u1 := { fresh.u1 with hclen := n, metaIdx := n - 1, clLen := List.replicate 19 l } }

theorem witness_MetaLengthStored : (lastMeta 19 0).u1.clLen.length = 19 ∧ (lastMeta 19 0).u1.metaIdx < (lastMeta 19 0).u1.hclen ∧
    (lastMeta 19 0).u1.hclen ≤ 19 ∧ (lastMeta 19 0).u1.metaIdx + 1 = (lastMeta 19 0).u1.hclen ∧
    nextIs (exec (.dynMetaLengths 1) (lastMeta 19 0)) (fun t => kraft (t.u1.clLen.map BitVec.toNat) ≤ 2 ^ 15) = true ∧
    nextIs (exec (.dynMetaLengths 1) (lastMeta 4 1)) (fun t => 2 ^ 15 < kraft (t.u1.clLen.map BitVec.toNat)) = true ∧
    ({ lastMeta 19 0 with u1 := { (lastMeta 19 0).u1 with metaIdx := 0 } } : State).u1.metaIdx + 1 < 19 := by decide +kernel
theorem witness_CodeLengthAppended :
    (reading [] []).u1.seq.length + 1 < (reading [] []).u1.hlit + (reading [] []).u1.hdist ∧
    (reading (List.replicate 257 0) []).u1.seq.length + 1 = 257 + 1 ∧ (reading [] []).u1.hlit ≤ 288 ∧ (reading [] []).u1.hdist ≤ 32 ∧
    nextIs (exec (.cln 1) (reading (List.replicate 257 0) [])) (fun t =>
      kraft (t.u1.llLen.map BitVec.toNat) ≤ 2 ^ 15 && kraft (t.u1.dLen.map BitVec.toNat) ≤ 2 ^ 15) = true ∧
    nextIs (exec (.cln 1) (reading (List.replicate 257 1) [])) (fun t => 2 ^ 15 < kraft (t.u1.llLen.map BitVec.toNat)) = true := by
  decide +kernel
theorem witness_RepeatPrevious :
    (reading [] []).u1.seq = [] ∧ (reading [2, 4] [0]).u1.seq = [2] ++ [4] ∧ (reading [2, 4] [0]).StreamOk ∧ (reading [2, 4] [0]).BitsLeft 2 ∧
    2 + (3 + (reading [2, 4] [0]).streamField 0 2) < 257 + 1 ∧
    (reading (List.replicate 254 0 ++ [4]) [0]).u1.seq.length + (3 + (reading [2, 4] [0]).streamField 0 2) = 257 + 1 ∧
    257 + 1 < (reading (List.replicate 255 0 ++ [4]) [0]).u1.seq.length + (3 + (reading [2, 4] [0]).streamField 0 2) ∧
    (reading [2, 4] [0]).u1.hlit ≤ 288 ∧ (reading [2, 4] [0]).u1.hdist ≤ 32 ∧
    (reading [2, 4] []).StreamOk ∧ ¬ (reading [2, 4] []).BitsLeft 2 := by decide +kernel
theorem witness_ZeroRuns : (Instr.cl17, 3, 3) ∈ [(Instr.cl17, 3, 3), (Instr.cl18, 7, 11)] ∧ (reading [] [127]).StreamOk ∧
    (reading [] [127]).BitsLeft 7 ∧ 0 + (11 + (reading [] [127]).streamField 0 7) < 257 + 1 ∧
    (reading (List.replicate 120 0) [127]).u1.seq.length + (11 + (reading [] [127]).streamField 0 7) = 257 + 1 ∧
    257 + 1 < (reading (List.replicate 121 0) [127]).u1.seq.length + (11 + (reading [] [127]).streamField 0 7) ∧
    ¬ (reading [] []).BitsLeft 3 := by decide +kernel

/-- The code of symbol 3 of the lengths `2 1 3 3` is `111` (41_inflate.md R177). -/
theorem witness_HuffmanDecodeInvertsCode : oversubscribed [2, 1, 3, 3] = false ∧ (∀ l ∈ [2, 1, 3, 3], l ≤ 15) ∧ 3 < [2, 1, 3, 3].length ∧
    0 < [2, 1, 3, 3].getD 3 0 ∧ (withIn fresh [7]).StreamOk ∧ (withIn fresh [7]).BitsLeft 3 ∧
    (∀ k, k < [2, 1, 3, 3].getD 3 0 → (withIn fresh [7]).streamBit (0 + k) = codeOf [2, 1, 3, 3] 3 / 2 ^ ([2, 1, 3, 3].getD 3 0 - 1 - k) % 2) := by
  decide +kernel
theorem witness_HuffmanDecodeSound : (∃ s', (withIn fresh [7]).decodeSymbol [2, 1, 3, 3] = .ok 3 s') ∧
    (∃ s', (withIn fresh [7]).decodeSymbol [2, 2, 2] = .raised s') ∧ (∃ s', fresh.decodeSymbol [2, 2, 2] = .raised s') :=
  ⟨⟨_, rfl⟩, ⟨_, rfl⟩, ⟨_, rfl⟩⟩

theorem witness_LiteralEmits : (withRaw fresh [1, 2]).InflateInv ∧ (withRaw fresh [1, 2]).RoomFor 1 ∧
    (withRaw fresh [1, 2, 3, 4, 5, 6, 7]).RoomFor 1 ∧ (withRaw fresh [1, 2, 3, 4, 5, 6, 7, 8]).InflateInv ∧
    (withRaw fresh [1, 2, 3, 4, 5, 6, 7, 8]).regs.rawLen.toNat = smallParams.rawMax := by decide +kernel
theorem witness_EndOfBlock : ({ fresh with u1 := { fresh.u1 with bfinal := 1 } } : State).u1.bfinal = 1 ∧ fresh.u1.bfinal = 0 := by decide
theorem witness_LengthSymbols : lengthSymbols[27]? = some (Instr.len284, 227, 5) ∧ lengthSymbols[0]? = some (Instr.len257, 3, 0) ∧
    (bitsLeft 5).StreamOk ∧ (bitsLeft 5).BitsLeft 5 ∧ (bitsLeft 4).StreamOk ∧ ¬ (bitsLeft 4).BitsLeft 5 := by decide +kernel
/-- `DIST_4` with an extra bit 0 is distance 5: exactly the output's length, and one too many for an output of 4. -/
theorem witness_DistanceSymbolsCopy : distanceSymbols[4]? = some (Instr.dist4, 5, 1) ∧ distanceSymbols[29]? = some (Instr.dist29, 24577, 13) ∧
    (matching [1, 2, 3, 4, 5] [0]).InflateInv ∧ (matching [1, 2, 3, 4, 5] [0]).StreamOk ∧ (matching [1, 2, 3, 4, 5] [0]).BitsLeft 1 ∧
    5 + (matching [1, 2, 3, 4, 5] [0]).streamField 0 1 ≤ (matching [1, 2, 3, 4, 5] [0]).regs.rawLen.toNat ∧
    (matching [1, 2, 3, 4, 5] [0]).RoomFor 3 ∧
    (matching [1, 2, 3, 4] [0]).regs.rawLen.toNat < 5 + (matching [1, 2, 3, 4] [0]).streamField 0 1 ∧
    (matching [1, 2, 3, 4, 5] []).StreamOk ∧ ¬ (matching [1, 2, 3, 4, 5] []).BitsLeft 1 ∧
    (matching [1, 2, 3, 4, 5, 6] [0]).InflateInv ∧ ¬ (matching [1, 2, 3, 4, 5, 6] [0]).RoomFor 3 := by decide +kernel
/-- The header of a stored block has been read; `bytes` follow it in the stream. -/
def storedAt (bytes : List Byte) : State :=
  { withIn fresh (1 :: bytes) with regs := { (withIn fresh (1 :: bytes)).regs with ipos := 3 } }
theorem witness_StoredBlockCopies :
    let s := storedAt [2, 0, 0, 0, 0x41, 0x42]
    let cut := storedAt [2, 0, 0]
    let short := storedAt [2, 0, 0, 0, 0x41]
    let big := storedAt [9, 0, 0, 0, 1, 2, 3, 4, 5, 6, 7, 8, 9]
    s.InflateInv ∧ s.StreamOk ∧ 1 = (s.regs.ipos.toNat + 7) / 8 ∧ 2 = (s.byteAt .inp 1).toNat + 256 * (s.byteAt .inp 2).toNat ∧
      1 + 4 + 2 ≤ s.regs.inLen.toNat ∧ s.RoomFor 2 ∧ cut.StreamOk ∧ cut.regs.inLen.toNat < 1 + 4 ∧
      (1 + 4 + 1 = short.regs.inLen.toNat ∧ 1 < 2 ∧ short.RoomFor 1) ∧
      (big.regs.rawLen.toNat + 8 = big.params.rawMax ∧ 8 < 9 ∧ 1 + 4 + 8 < big.regs.inLen.toNat) := by decide +kernel
/-- The data of a stored block end early; `RAW` is full before its last byte. -/
theorem test_stored_faults : nextIs (exec .stored (storedAt [2, 0, 0, 0, 0x41]))
      (fun t => t.phase = .fault && t.regs.err == 0x00010603 && t.bytesAt .raw 0 1 == [0x41] && t.regs.rawLen == 1) = true ∧
    nextIs (exec .stored (storedAt [9, 0, 0, 0, 1, 2, 3, 4, 5, 6, 7, 8, 9]))
      (fun t => t.phase = .fault && t.regs.err == 0x00010108 && t.bytesAt .raw 0 8 == [1, 2, 3, 4, 5, 6, 7, 8] && t.regs.rawLen == 8) = true := by
  decide +kernel
theorem witness_StreamElementFrame : isStreamElement (.lit 7) = true ∧ isStreamElement .stored = true ∧ isStreamElement .cl16 = true ∧
    nextIs (exec .cl16 fresh) (fun _ => true) = true ∧ Instr.cl16 ≠ .stored ∧ (∀ p ∈ distanceSymbols, p.1 ≠ Instr.cl16) ∧ fresh.InflateInv := by
  decide +kernel

/-! U2 and U3 -/

/-- `RAW` holds `00 01`, one gray pixel. -/
def oneGray : State :=
  { withRaw fresh [0, 1] with regs := { (withRaw fresh [0, 1]).regs with fmt := 8, fW := 1, fH := 1 } }

/-- One state for each branch of the order. -/
theorem witness_ReconAdmissionOrder : fresh.Ready ∧ fresh.valid.raw = false ∧
    (oneGray.Ready ∧ oneGray.valid.raw = true ∧ (oneGray.colorType, oneGray.bitDepth) ∈ legalPairs ∧
      oneGray.SizeOk oneGray.regs.fW oneGray.regs.fH ∧ oneGray.TransparencyOk ∧ oneGray.streamNeed ≤ oneGray.regs.rawLen.toNat) ∧
    (3, 16) ∉ legalPairs ∧ ¬ oneGray.SizeOk 0 1 ∧ oneGray.SizeOk 32 32 ∧ ¬ oneGray.SizeOk 32 33 ∧
    ¬ ({ oneGray with regs := { oneGray.regs with trCtl := 1 } } : State).TransparencyOk ∧
    ({ oneGray with regs := { oneGray.regs with rawLen := 1 } } : State).regs.rawLen.toNat < oneGray.streamNeed := by decide +kernel
theorem witness_FilterReversal : 1 ≤ 1 ∧ 1 < ([3, 4] : List Byte).length := by decide
theorem witness_FilterIdentity : unfilter .paeth 1 (filterForward .paeth 1 [11, 22] [10, 20]) [10, 20] = [11, 22] := by decide

/-- An indexed line of two 1-bit pixels `0 1` and a palette of `n` entries. -/
def indexed (n : Word) : State :=
  { oneLine 0x301 2 [0, 0x40] with regs := { (oneLine 0x301 2 [0, 0x40]).regs with palN := n } }

theorem witness_LineCompletes : (Instr.filterPaeth, Filter.paeth) ∈ filterRows ∧ (below [4, 1, 2]).SizeInv ∧
    (below [4, 1, 2]).phase = .busy .scanline ∧ (indexed 2).SizeInv ∧ (indexed 2).colorType = 3 ∧
    (∀ col, col < (indexed 2).currentPass.pw → samp (indexed 2).bitDepth ((indexed 2).lineOut .none) col < (indexed 2).regs.palN.toNat) ∧
    (indexed 1).SizeInv ∧ 1 < (indexed 1).currentPass.pw ∧
    (indexed 1).regs.palN.toNat ≤ samp (indexed 1).bitDepth ((indexed 1).lineOut .none) 1 ∧
    (∀ col, col < 1 → samp (indexed 1).bitDepth ((indexed 1).lineOut .none) col < (indexed 1).regs.palN.toNat) := by
  and_intros <;> decide +kernel

/-- A gray 8-bit image of 1 by `h`, `INTERLACED` as `fmt` has it, at its first line (43_deinterlace.md R286 for 1 by 1 and 2 by 2). -/
def column (fmt w h : Word) : State := { oneLine fmt w [0, 1] with regs := { (oneLine fmt w [0, 1]).regs with fH := h } }

/-- The three cases after a line: a further row; a further pass, number 6, with the passes 2 to 5 empty; the end. -/
theorem witness_LineCompletes_loop : (column 8 1 2).SizeInv ∧ (column 8 1 2).u2.row + 1 < (column 8 1 2).currentPass.ph ∧
    (column 0x10008 2 2).SizeInv ∧ (column 0x10008 2 2).u2.row + 1 = (column 0x10008 2 2).currentPass.ph ∧
    ((column 0x10008 2 2).passes.map (fun p => (p.pw, p.ph)) = [(1, 1), (0, 1), (1, 0), (0, 1), (1, 0), (1, 1), (2, 1)]) ∧
    (column 0x10008 1 1).u2.row + 1 = (column 0x10008 1 1).currentPass.ph ∧
    ((column 0x10008 1 1).passes.drop 1).all (fun p => p.pw == 0 || p.ph == 0) = true := by
  and_intros <;> decide +kernel
/-- 42_scanline.md R253 to R259: the examples of the rules. -/
theorem test_pixel : samp 2 [0x1B] 3 = 3 ∧ samp 16 [1, 2, 3, 4] 1 = 0x0304 ∧ to8 4 7 = 0x77 ∧
    ({ fresh with regs := { fresh.regs with fmt := 4, trCtl := 2, key0 := 7 } } : State).pixel [0x0F, 0x70] 2 = some ⟨0x77, 0x77, 0x77, 0⟩ ∧
    ({ fresh with regs := { fresh.regs with fmt := 0x410 } } : State).pixel [0x80, 0x01, 0x40, 0xFF] 0 = some ⟨0x80, 0x80, 0x80, 0x40⟩ ∧
    ({ fresh with regs := { fresh.regs with fmt := 0x610 } } : State).pixel [1, 2, 3, 4, 5, 6, 7, 8] 0 = some ⟨1, 3, 5, 7⟩ ∧
    ({ fresh with regs := { fresh.regs with fmt := 0x210, trCtl := 3, key0 := 0x102, key1 := 0x304, key2 := 0x506 } } : State).pixel
      [1, 2, 3, 4, 5, 6] 0 = some ⟨1, 3, 5, 0⟩ := by decide +kernel
theorem witness_FilterIllegalRaises : (oneLine 8 1 [5, 1]).script = [] ∧ (oneLine 8 1 [5, 1]).phase = .busy .scanline ∧
    5 ≤ ((oneLine 8 1 [5, 1]).byteAt .raw (oneLine 8 1 [5, 1]).u2.pos).toNat ∧
    5 ≤ ((oneLine 8 1 [255, 1]).byteAt .raw (oneLine 8 1 [255, 1]).u2.pos).toNat := by decide +kernel
/-- Pixel (2, 1) of a 3 by 2 image is pixel 2 of row 0 of pass 7 (43_deinterlace.md R280). -/
theorem witness_PassesCoverOnce : 2 < 3 ∧ 1 < 2 ∧ (passList 3 2 true)[6]? = some ⟨1, 0, 2, 1, 3, 1⟩ ∧ 2 = 0 + 2 * 1 ∧ 1 = 1 + 0 * 2 ∧
    (2, 2, [(1, 1), (0, 1), (1, 0), (0, 1), (1, 0), (1, 1), (2, 1)], 7) ∈ smallImages ∧ (0, 8, 8, 1) ∈ pixelWidths ∧
    ((column 0x10008 2 2).regs.fW.toNat = 2 ∧ (column 0x10008 2 2).interlaced = true ∧ (column 0x10008 2 2).colorType = 0 ∧
      (column 0x10008 2 2).bitDepth = 8) ∧ ((column 8 1 2).interlaced = false ∧ 1 ≤ (column 8 1 2).regs.fW.toNat) := by decide +kernel
theorem test_streamNeed : (column 0x10008 5 5).streamNeed = 36 ∧ (column 0x10008 9 3).streamNeed = 34 ∧ (column 0x10008 4 1).streamNeed = 7 := by
  decide +kernel

/-! U4 -/

theorem witness_CanvasInitClears : fresh.Ready ∧
    ({ fresh with regs := { fresh.regs with imgW := 32, imgH := 32 } } : State).SizeOk 32 32 ∧ ¬ fresh.SizeOk fresh.regs.imgW fresh.regs.imgH ∧
    ¬ fresh.SizeOk 1025 1 := by decide +kernel
theorem witness_ComposeAdmissionOrder :
    let s : State := framed 2 2
    let at2 : State := { s with regs := { s.regs with fX := 1 } }
    let mode : State := { s with regs := { s.regs with fCtl := 3 } }
    let restore : State := { s with regs := { s.regs with fCtl := 2 } }
    s.Ready ∧ fresh.valid.tile = false ∧ (s.valid.tile = true ∧ s.valid.canvas = true ∧ s.regs.fW = s.regs.tileW ∧ s.regs.fH = s.regs.tileH ∧
      s.RectInside ∧ s.blendMode ≤ 1 ∧ s.disposeMode ≤ 2 ∧ s.disposeMode ≠ 2) ∧ s.regs.fW ≠ 3 ∧ ¬ at2.RectInside ∧
      ¬(mode.blendMode ≤ 1 ∧ mode.disposeMode ≤ 2) ∧ restore.disposeMode = 2 := by decide +kernel
theorem witness_BlendCompletes : (onePixel [1, 2, 3, 4] [5, 6, 7, 8]).SizeInv ∧ (onePixel [1, 2, 3, 4] [5, 6, 7, 8]).phase = .busy .blend ∧
    (onePixel [1, 2, 3, 4] [5, 6, 7, 8]).OutsideRect 4 ∧ (onePixel [1, 2, 3, 4] [5, 6, 7, 8]).regs.frameCnt.toNat + 1 < 2 ^ 32 := by
  refine ⟨by decide +kernel, rfl, ?_, by decide⟩
  intro i j hi hj
  have h1 : i < 1 := hi
  have h2 : j < 1 := hj
  obtain rfl : i = 0 := by omega
  obtain rfl : j = 0 := by omega
  exact .inr (by decide)
theorem witness_OverIsExact : 255 * (Pixel.zero).a.toNat + (Pixel.zero).a.toNat * (255 - (Pixel.zero).a.toNat) = 0 ∧
    255 * (1 : Byte).toNat + (255 : Byte).toNat * (255 - (1 : Byte).toNat) ≠ 0 := by decide
theorem witness_DisposeCompletes : (running (framed 2 1) .dispose).SizeInv ∧ (running (framed 2 1) .dispose).phase = .busy .dispose := by
  decide +kernel

/-- COMPOSE with blend over and dispose restorePrevious is the host's next action. -/
def restoring : State :=
  { framed 2 1 with regs := { (framed 2 1).regs with fCtl := 0x12 }, script := [⟨false, .writeReg 0 5⟩] }

theorem witness_Inv_framed : (framed 2 1).MemoryInv ∧ (framed 2 1).FlagInv ∧ (framed 2 1).InflateInv ∧ (framed 2 1).SizeInv ∧
    (framed 2 1).CapacityInv := by
  and_intros <;> decide +kernel
theorem witness_RestorePreviousRestores : restoring.Inv ∧ restoring.Ready ∧ (5 : Word).toNat % 16 = 5 ∧ restoring.composeAdmission = none ∧
    restoring.disposeMode = 2 ∧ restoring.regs.frameCnt.toNat + 1 < 2 ^ 32 :=
  ⟨by and_intros <;> decide +kernel, .inl rfl, rfl, by decide +kernel, rfl, by decide +kernel⟩

/-! U5 -/

/-- A payload of `bytes` exactly at `IN_OFF = 0`. -/
theorem witness_HashAvgCompletes :
    let s := withIn fresh [0x1D, 0xCB, 2, 0, 0]
    let a := withIn fresh [0x1D, 0xCB, 0x82, 7, 0]
    let h := s.payloadByte 0 + 256 * s.payloadByte 1 + 65536 * s.payloadByte 2
    s.Ready ∧ s.regs.inOff.toNat ≤ s.regs.inLen.toNat ∧ s.regs.inLen.toNat ≤ s.params.inMax ∧ 5 ≤ s.regs.inLen.toNat - s.regs.inOff.toNat ∧
      h / 2 ^ 23 % 2 ≠ 1 ∧ (a.regs.inLen.toNat - a.regs.inOff.toNat = 5 ∧ a.payloadByte 2 / 128 = 1) ∧
      fresh.regs.inLen.toNat - fresh.regs.inOff.toNat < 5 ∧
      ¬(({ fresh with regs := { fresh.regs with inLen := 65 } } : State).regs.inLen.toNat ≤ fresh.params.inMax) ∧
      (63 < 64 ∧ (1 : Rat) = (63 : Nat) / 63) := by decide +kernel
theorem witness_HashAspectCompletes :
    let s := withIn fresh [0x1D, 0xCB, 0x82, 7, 0]
    s.Ready ∧ 7 = s.payloadByte 3 % 8 ∧ 5 = (if s.payloadByte 2 / 128 % 2 = 1 then 5 else 7) ∧
      false = decide (s.payloadByte 4 / 128 % 2 = 1) := by decide +kernel
theorem witness_HashEncCompletes :
    let s : State := { withIn fresh [9, 9, 9, 0] with regs := { (withIn fresh [9, 9, 9, 0]).regs with hW := 1, hH := 1 } }
    let big : State := { fresh with regs := { fresh.regs with hW := 101, hH := 50 } }
    s.Ready ∧ 1 ≤ s.regs.hW.toNat ∧ s.regs.hW.toNat ≤ 100 ∧ 1 ≤ s.regs.hH.toNat ∧ s.regs.hH.toNat ≤ 100 ∧
      s.regs.inOff.toNat ≤ s.regs.inLen.toNat ∧ s.regs.inLen.toNat ≤ s.params.inMax ∧
      s.regs.inLen.toNat - s.regs.inOff.toNat = 4 * s.regs.hW.toNat * s.regs.hH.toNat ∧ big.Ready ∧ 100 < big.regs.hW.toNat ∧
      ¬(1 ≤ fresh.regs.hW.toNat) ∧ fresh.regs.hW.toNat ≤ 100 ∧ s.params.numerics = .exactReals := by decide +kernel
theorem witness_EncodedHashIsDecodable : 1 ≤ 1 ∧ 1 ≤ 100 ∧ [Pixel.zero].length = 1 * 1 ∧
    (hashEncode exactReals 1 1 [{ r := 9, g := 9, b := 9, a := 0 }]).length = 25 ∧
    (headerOf (hashEncode exactReals 1 1 [{ r := 9, g := 9, b := 9, a := 0 }])).hasAlpha = true := by decide +kernel
theorem witness_HashDecCompletes :
    let s := withIn fresh ([0x00, 0x08, 0x82, 0x05, 0x00, 0x00] ++ List.replicate 19 0x88)
    let short := withIn fresh ([0x00, 0x08, 0x82, 0x05, 0x00, 0x00] ++ List.replicate 18 0x88)
    s.Ready ∧ (s.regs.inOff.toNat ≤ s.regs.inLen.toNat ∧ s.regs.inLen.toNat ≤ s.params.inMax) ∧ s.payloadByte 3 % 8 ≠ 0 ∧
      s.regs.inLen.toNat - s.regs.inOff.toNat = s.header.need ∧
      short.regs.inLen.toNat - short.regs.inOff.toNat < short.header.need ∧
      (withIn fresh [0x1D, 0xCB, 2, 0, 0]).payloadByte 3 % 8 = 0 ∧ s.params.numerics = .exactReals ∧
      ((hashHeader 0x02CB1D 7).lScale = 0 ∧ (hashHeader 0x02CB1D 7).pScale = 0 ∧ (hashHeader 0x02CB1D 7).qScale = 0 ∧
        (hashHeader 0x02CB1D 7).hasAlpha = false) ∧
      ((hashHeader 0x820800 5).hasAlpha = true ∧ (hashHeader 0x820800 5).lScale = 0 ∧ ([0, 0, 0, 0, 0, 0x07] : List Byte).getD 5 0 / 16 = 0) := by
  decide +kernel
/-- 45_dct_hash.md R340, R346 by hand: scales 0, `A_DC` = 7, so alpha is 7/15 everywhere and its byte floor(255 * 7 / 15) = 119. -/
theorem witness_HashDecCompletes_alpha : ∀ bytes : List Byte, bytes = [0x1D, 0xCB, 0x82, 0x05, 0x00, 0x07] ++ List.replicate 19 0x88 →
    let hd := headerOf bytes
    hd.hasAlpha = true ∧ hd.lScale = 0 ∧ hd.pScale = 0 ∧ hd.qScale = 0 ∧ (bytes.getD 5 0).toNat / 16 = 0 ∧
      (255 * max 0 (min 1 ((((bytes.getD 5 0).toNat % 16 : Nat) : Rat) / 15))).floor = 119 ∧
      decodePixel exactReals (spectraOf exactReals hd bytes) 32 32 3 4 = ⟨0xC9, 0x64, 0x31, 119⟩ := by
  intro bytes h; subst h; decide +kernel
theorem witness_HashLengthTable : (hashHeader 0 7).hasAlpha = false ∧ (hashHeader 0 7).grid = 7 ∧
    (hashHeader (2 ^ 23) 1).hasAlpha = true ∧ (hashHeader (2 ^ 23) 1).grid ∈ [1, 2, 3] := by decide
theorem witness_FrequencyPairOrder : 1 ≤ 1 ∧ (freqPairs 1 1).head? = some (0, 0) ∧ (2, 0) ∈ freqPairs 3 3 := by decide

/-! Whole machine -/

theorem witness_PseudoCommandsExpand : (faulted fresh).phase = .fault ∧ fresh.phase ≠ .fault ∧
    (∀ v : Word, HostOp.readOut ≠ .writeReg 0 v) := ⟨rfl, by decide, by intro v; nofun⟩
theorem witness_OperandsAreHostOnly : nextIs (exec .nop fresh) (fun _ => true) = true := by decide +kernel
/-- One step of a state that meets every invariant, for the statements that say a step keeps one. -/
theorem witness_StepKeepsInv : fresh.Inv ∧ nextIs (step fresh) (fun _ => true) = true ∧
    nextIs (step { fresh with script := [⟨false, .writeReg 0 2⟩] }) (fun t => t.phase.isU1) = true :=
  ⟨by and_intros <;> decide +kernel, by decide +kernel, by decide +kernel⟩
theorem witness_ResetMeetsInvariants : smallParams.Ok ∧ Params.default.Ok := by decide +kernel
/-- The invariant, and the stops on byte 64 of `IN`, which is not there, and on an `OUT_LEN` beyond `PIX_MAX`, which no command leaves. -/
theorem witness_StepNeverRefuses : fresh.InflateInv ∧
    step { fresh with script := [⟨false, .readBuf .inp 64 1⟩] } = .fault .noSuchByte ∧
    step { fresh with regs := { fresh.regs with outLen := 4097 }, script := [⟨false, .readOut⟩] } = .fault .noSuchByte :=
  ⟨by decide +kernel, rfl, rfl⟩
theorem witness_InflateMovesForward : (running (bitsLeft 3) .header).InflateInv ∧ (running (bitsLeft 3) .header).phase.isU1 = true ∧
    (running (bitsLeft 3) .header).script = [] ∧ nextIs (step (running (bitsLeft 3) .header)) (fun _ => true) = true := by decide +kernel

end Sys2Proof.Tests
end

section
/-! The sequencer: everything a `CMD` write can do, and what one step of the machine can do, each said once; what every action of the
host and every element of a unit keeps, every step keeps (10_state.md R22, R40; 40_commands.md R140). -/

namespace Sys2Proof.Machine

/-! ### Commands -/

/-- The canvas CANVAS_INIT leaves (40_commands.md R149). -/
def State.initCanvas (s : State) : State :=
  let s1 := s.openDest .canvas
  let s2 := { s1 with regs := { s1.regs with canvasW := s1.regs.imgW, canvasH := s1.regs.imgH, frameCnt := 0 } }
  (s2.writeBytes .canvas 0 (List.replicate s2.canvasBytes 0)).complete .canvas

/-- COMPOSE admitted: both destinations opened, the canvas saved for restorePrevious (40_commands.md R150, 44_compositor.md R293). -/
def State.startCompose (s : State) : State :=
  let s1 := (s.openDest .canvas).openDest .out
  let s2 := if s.disposeMode = 2 then (s1.copyBuf .canvas .save s.canvasBytes).setValid .save true else s1
  s2.setPhase (.busy .blend)

/-- A copy changes its destination buffer alone. -/
theorem copyBuf_state (s : State) (src dst : Buf) (n : Nat) : ∃ m, s.copyBuf src dst n = { s with buf := s.buf.put dst m } :=
  ⟨_, rfl⟩

/-- Everything COMPOSE changes at its start. -/
theorem startCompose_state (s : State) : ∃ m f, s.startCompose = { s with
    phase := .busy .blend, pristine := false, fills := f, buf := { s.buf with save := m },
    valid := { s.valid with canvas := false, out := false, save := if s.disposeMode = 2 then true else s.valid.save } } := by
  unfold State.startCompose
  by_cases h : s.disposeMode = 2
  · obtain ⟨m, hm⟩ := copyBuf_state ((s.openDest .canvas).openDest .out) .canvas .save s.canvasBytes
    simp only [if_pos h, hm]
    exact ⟨m, _, rfl⟩
  · simp only [if_neg h]
    exact ⟨s.buf.save, _, rfl⟩

/-- What each command but CLEAR leaves when it is admitted. -/
inductive State.Starts (s : State) : State → Prop
  | nop : s.Starts (s.setPhase .done)
  | inflate : s.inflateAdmission = none → s.Starts ((s.openDest .raw).startInflate.await .header)
  | recon : s.reconAdmission = none →
      s.Starts (((s.openDest .tile).startPass (nextPass s.passes 0) 0).setPhase (.busy .scanline))
  | canvasInit : s.canvasInitAdmission = none → s.Starts s.initCanvas
  | compose : s.composeAdmission = none → s.Starts s.startCompose
  | hashEnc : s.hashEncAdmission = none → s.Starts
      (((s.openDest .out).putOut (hashEncodeWith s.params.numerics s.regs.hW.toNat s.regs.hH.toNat s.hashPixels) 0 0).complete .out)
  | hashDec : s.hashDecAdmission = none → s.Starts
      (((s.openDest .out).putOut ((hashDecodeWith s.params.numerics s.header s.hashBytes).flatMap Pixel.bytes)
        s.header.outW s.header.outH).complete .out)
  | hashAvg : s.hashAvgAdmission = none → s.Starts
      (((s.openDest .res).putRes s.avgHeader.avgR s.avgHeader.avgG s.avgHeader.avgB s.avgA).complete .res)
  | hashAspect : s.hashAspectAdmission = none → s.Starts
      (((s.openDest .res).putRes s.header.lx s.header.ly 0 0).complete .res)

/-- A command word is CLEAR, or goes through the admission of `State.command`. -/
theorem exec_decodeCmd (w : Nat) (s : State) :
    (w % 16 = 1 ∧ exec (decodeCmd w) s = execClear s) ∨
      (w % 16 ≠ 1 ∧ ∃ adm run, exec (decodeCmd w) s = s.command adm run ∧ (adm = none → s.Starts (run ()))) := by
  unfold decodeCmd
  split
  case h_1 h => exact .inr ⟨by omega, _, _, @rfl _ (execNop s), fun _ => .nop⟩
  case h_2 h => exact .inl ⟨h, rfl⟩
  case h_3 h => exact .inr ⟨by omega, _, _, @rfl _ (execInflate s), .inflate⟩
  case h_4 h => exact .inr ⟨by omega, _, _, @rfl _ (execRecon s), .recon⟩
  case h_5 h => exact .inr ⟨by omega, _, _, @rfl _ (execCanvasInit s), .canvasInit⟩
  case h_6 h => exact .inr ⟨by omega, _, _, @rfl _ (execCompose s), .compose⟩
  case h_7 h => exact .inr ⟨by omega, _, _, @rfl _ (execHashEnc s), .hashEnc⟩
  case h_8 h => exact .inr ⟨by omega, _, _, @rfl _ (execHashDec s), .hashDec⟩
  case h_9 h => exact .inr ⟨by omega, _, _, @rfl _ (execHashAvg s), .hashAvg⟩
  case h_10 h => exact .inr ⟨by omega, _, _, @rfl _ (execHashAspect s), .hashAspect⟩
  case h_11 h => exact .inr ⟨by omega, some (.badOpcode, .sequencer), fun _ => s, rfl, nofun⟩
  case h_12 h => exact .inr ⟨by omega, some (.badOpcode, .sequencer), fun _ => s, rfl, nofun⟩
  case h_13 h _ _ _ _ _ _ _ _ _ _ => exact .inr ⟨h, some (.badOpcode, .sequencer), fun _ => s, rfl, nofun⟩

/-- A command word takes part by its bits [3:0] alone (40_commands.md R141). -/
theorem decodeCmd_mod (w : Nat) : decodeCmd (w % 16) = decodeCmd w := by
  rw [decodeCmd, decodeCmd, Nat.mod_mod]

/-- A `CMD` write executes the command its value decodes to. -/
theorem hostWriteReg_cmd (s : State) (v : Word) : s.hostWriteReg 0 v = exec (decodeCmd v.toNat) s := by
  simp [State.hostWriteReg, State.run, decode, v.isLt]

theorem execCommand_busy {s : State} {a : Await} (h : s.phase = .busy a) (w : Nat) : exec (decodeCmd w) s = .next s := by
  obtain ⟨-, he⟩ | ⟨-, adm, run, he, -⟩ := exec_decodeCmd w s
  · rw [he, execClear, h]; rfl
  · rw [he, command_busy h]

theorem execCommand_fault {s : State} (h : s.phase = .fault) (w : Nat) :
    exec (decodeCmd w) s = .next (if w % 16 = 1 then s.clear else s) := by
  obtain ⟨hw, he⟩ | ⟨hw, adm, run, he, -⟩ := exec_decodeCmd w s
  · rw [he, execClear, h, if_pos hw]; rfl
  · rw [he, command_fault h, if_neg hw]

/-- Everything a `CMD` write can do: nothing, a refusal, CLEAR, or the start of an admitted command. -/
theorem execCommand_cases {s t : State} {w : Nat} (h : exec (decodeCmd w) s = .next t) :
    t = s ∨ (s.Ready ∧ ∃ f u, t = s.raise f u) ∨ (s.phase.isBusy = false ∧ t = s.clear) ∨ (s.Ready ∧ s.Starts t) := by
  obtain ⟨-, he⟩ | ⟨-, adm, run, he, hs⟩ := exec_decodeCmd w s
  · rw [he, execClear] at h
    split at h
    · exact .inl (Host.Outcome.next.inj h).symm
    · rename_i hb
      exact .inr (.inr (.inl ⟨by simpa using hb, (Host.Outcome.next.inj h).symm⟩))
  · rw [he] at h
    obtain hc | ⟨hr, f, u, -, hc⟩ | ⟨hr, hn, hc⟩ := command_cases s adm run <;>
      obtain rfl := Host.Outcome.next.inj (hc.symm.trans h)
    · exact .inl rfl
    · exact .inr (.inl ⟨hr, f, u, rfl⟩)
    · exact .inr (.inr (.inr ⟨hr, hs hn⟩))

/-! ### One step -/

/-- The host's next action is due. -/
theorem step_of_due {s : State} {item : HostItem} {rest : List HostItem} (h : s.script = item :: rest)
    (hd : item.early = true ∨ s.phase.isBusy = false) : step s = State.act { s with script := rest } item.op := by
  have : (item.early || !s.phase.isBusy) = true := by simpa using hd
  simp [step, State.advance, h, this]

/-- No action is due: the running unit, if any, makes its step. -/
theorem step_of_undisturbed {s : State} {a : Await} (h : s.Undisturbed) (ha : s.phase = .busy a) : step s = s.element a 31 := by
  obtain hn | ⟨item, rest, hi, he⟩ := h
  · simp [step, State.advance, hn, State.proceed, ha, State.unitStep]
  · simp [step, State.advance, hi, he, State.proceed, ha, State.unitStep, Phase.isBusy]

/-- Everything the passing of time can do. -/
theorem proceed_cases {s t : State} (h : s.proceed = .next t) :
    t = s ∨ ∃ a, s.phase = .busy a ∧ s.element a 31 = .next t := by
  unfold State.proceed at h
  split at h
  case h_1 a ha => exact .inr ⟨a, ha, h⟩
  all_goals exact .inl (Host.Outcome.next.inj h).symm

/-- Everything a step can do. -/
theorem step_cases {s t : State} (h : step s = .next t) :
    s.proceed = .next t ∨ ∃ item rest, s.script = item :: rest ∧ State.act { s with script := rest } item.op = .next t := by
  unfold step State.advance at h
  split at h
  case h_1 => exact .inl h
  case h_2 item rest hs =>
    split at h
    · exact .inr ⟨item, rest, hs, h⟩
    · exact .inl h

/-- A host register read hands out at most one free value. -/
theorem hostReadReg_state (s : State) (n : Nat) : ∃ c, (s.hostReadReg n).2 = { s with freeCtr := c } := by
  unfold State.hostReadReg
  split
  · exact ⟨_, rfl⟩
  · split
    · exact ⟨_, rfl⟩
    · exact ⟨_, rfl⟩

/-- A host buffer read hands out free values. -/
theorem hostReadBytes_state (s : State) (b : HostRBuf) (i n : Nat) : ∃ c, (s.hostReadBytes b i n).2 = { s with freeCtr := c } := by
  unfold State.hostReadBytes
  split
  · exact ⟨_, rfl⟩
  · exact ⟨_, rfl⟩

/-- A host buffer read changes only what the host has read and which free values it was given. -/
theorem doReadBuf_next {s t : State} {b : HostRBuf} {i n : Nat} (h : s.doReadBuf b i n = .next t) :
    ∃ c l, t = { s with freeCtr := c, hostLog := l } := by
  unfold State.doReadBuf at h
  split at h
  · obtain ⟨c, hc⟩ := hostReadBytes_state s b i n
    rw [hc] at h
    exact ⟨c, _, (Host.Outcome.next.inj h).symm⟩
  · cases h

/-- What every element keeps, the passing of time keeps. -/
theorem proceed_keeps {P : State → Prop}
    (unit : ∀ {s t : State} {a : Await}, s.phase = .busy a → P s → s.element a 31 = .next t → P t)
    {s t : State} (h : P s) (he : s.proceed = .next t) : P t := by
  obtain rfl | ⟨a, ha, hu⟩ := proceed_cases he
  · exact h
  · exact unit ha h hu

/-- What every action of the host keeps: the conditions, action by action, under which `P` is kept. -/
structure KeptByHost (P : State → Prop) : Prop where
  /-- the model's queue, log and counter of free values -/
  queue : ∀ {s : State} (l : List HostItem) (c : Nat) (r : List HostRead), P s → P { s with script := l, freeCtr := c, hostLog := r }
  /-- a register write outside BUSY -/
  write : ∀ {s : State} (n : Nat) (v : Word), s.phase.isBusy = false → P s → P { s with regs := s.regs.write n v }
  /-- a buffer write outside BUSY -/
  store : ∀ {s : State} (b : HostWBuf) (i : Nat) (bs : List Byte), s.phase.isBusy = false →
    i + bs.length ≤ s.params.capacity b.buf → P s → P (s.writeBytes b.buf i bs)
  /-- the reset input -/
  reset : ∀ {s : State}, P s → P s.doReset
  /-- a command that is not admitted -/
  refuse : ∀ {s : State} (f : FaultCode) (u : UnitId), s.Ready → P s → P (s.raise f u)
  /-- CLEAR -/
  clear : ∀ {s : State}, s.phase.isBusy = false → P s → P s.clear
  /-- a command that is admitted -/
  start : ∀ {s t : State}, s.Ready → s.Starts t → P s → P t

namespace KeptByHost

variable {P : State → Prop} (k : KeptByHost P)
include k

theorem reads {s : State} (c : Nat) (r : List HostRead) (h : P s) : P { s with freeCtr := c, hostLog := r } :=
  k.queue s.script c r h

theorem command {s t : State} {w : Nat} (h : P s) (he : exec (decodeCmd w) s = .next t) : P t := by
  obtain rfl | ⟨hr, f, u, rfl⟩ | ⟨hb, rfl⟩ | ⟨hr, hs⟩ := execCommand_cases he
  · exact h
  · exact k.refuse f u hr h
  · exact k.clear hb h
  · exact k.start hr hs h

theorem readReg {s : State} (n : Nat) (h : P s) : P (s.doReadReg n) := by
  obtain ⟨c, hc⟩ := hostReadReg_state s n
  rw [State.doReadReg, hc]
  exact k.reads (s := s) c _ h

theorem readBuf {s t : State} {b : HostRBuf} {i n : Nat} (h : P s) (he : s.doReadBuf b i n = .next t) : P t := by
  obtain ⟨c, l, rfl⟩ := doReadBuf_next he
  exact k.reads c l h

theorem writeReg {s t : State} {n : Nat} {v : Word} (h : P s) (he : s.hostWriteReg n v = .next t) : P t := by
  by_cases hn : n = 0
  · subst hn
    exact k.command h ((hostWriteReg_cmd s v).symm.trans he)
  · rw [State.hostWriteReg, if_neg hn, State.doWriteReg] at he
    obtain rfl := Host.Outcome.next.inj he
    split
    · exact h
    · exact k.write n v (Bool.eq_false_of_not_eq_true ‹_›) h

theorem writeBuf {s t : State} {b : HostWBuf} {i : Nat} {bs : List Byte} (h : P s) (he : s.doWriteBuf b i bs = .next t) : P t := by
  unfold State.doWriteBuf at he
  split at he
  · exact Host.Outcome.next.inj he ▸ h
  · split at he
    · exact Host.Outcome.next.inj he ▸ k.store b i bs (Bool.eq_false_of_not_eq_true ‹_›) ‹_› h
    · cases he

theorem act (unit : ∀ {s t : State} {a : Await}, s.phase = .busy a → P s → s.element a 31 = .next t → P t) {s t : State}
    {op : HostOp} (h : P s) (he : s.act op = .next t) : P t := by
  cases op with
  | writeReg n v => exact k.writeReg h he
  | readReg n => exact Host.Outcome.next.inj he ▸ k.readReg n h
  | writeBuf b i bs => exact k.writeBuf h he
  | readBuf b i n => exact k.readBuf h he
  | readOut =>
    obtain ⟨c, hc⟩ := hostReadReg_state s 0x17
    simp only [State.act, State.doReadOut, hc] at he
    exact k.readBuf (k.reads c s.hostLog h) he
  | reset => exact Host.Outcome.next.inj he ▸ k.reset h
  | tick => exact proceed_keeps unit h he
  | stopIfFault n =>
    obtain rfl := Host.Outcome.next.inj he
    unfold State.doStopIfFault
    split
    · exact k.queue _ _ _ h
    · exact h
  | frame a => exact Host.Outcome.next.inj he ▸ k.queue _ _ _ h
  | decodeStill a => exact Host.Outcome.next.inj he ▸ k.queue _ _ _ h
  | decodeAnim a => exact Host.Outcome.next.inj he ▸ k.queue _ _ _ h

/-- What every action of the host and every element of a unit keeps, every step keeps. -/
theorem step (unit : ∀ {s t : State} {a : Await}, s.phase = .busy a → P s → s.element a 31 = .next t → P t) {s t : State}
    (h : P s) (he : Machine.step s = .next t) : P t := by
  obtain hp | ⟨item, rest, -, ha⟩ := step_cases he
  · exact proceed_keeps unit h hp
  · exact k.act unit (k.queue rest s.freeCtr s.hostLog h) ha

end KeptByHost

end Sys2Proof.Machine
end

section
/-! Unit U1: what each value read in one of its formats does, and what every element of the stream keeps. A property kept by each
primitive of U1 (a bit read, a byte put out, a table written, a fault) is kept by all of them in sequence (41_inflate.md). -/

namespace Sys2Proof.Machine

/-! ### Unit operations in sequence -/

/-- The operation ends with `P` of its answer, or raises with `Q` of the state after fault entry. -/
inductive Res.Ends {α : Type} (P : α → State → Prop) (Q : State → Prop) : Res α → Prop
  | ok {a : α} {s : State} : P a s → Res.Ends P Q (.ok a s)
  | raised {s : State} : Q s → Res.Ends P Q (.raised s)

theorem Res.Ends.bind {α β : Type} {P : α → State → Prop} {P' : β → State → Prop} {Q : State → Prop} {r : Res α}
    {k : α → State → Res β} (h : r.Ends P Q) (hk : ∀ a s, P a s → (k a s).Ends P' Q) : (r.bind k).Ends P' Q := by
  cases h with
  | ok h => exact hk _ _ h
  | raised h => exact .raised h

theorem Res.Ends.outcome {P : Unit → State → Prop} {Q : State → Prop} {r : Res Unit} {t : State} (ht : r.outcome = .next t)
    (h : r.Ends P Q) : P () t ∨ Q t := by
  cases h with
  | ok h => exact .inl (Host.Outcome.next.inj ht ▸ h)
  | raised h => exact .inr (Host.Outcome.next.inj ht ▸ h)

/-! ### What is kept -/

/-- `P` is kept by the bit reader; `Q` holds after a fault (41_inflate.md R170). -/
structure KeptByReads (P Q : State → Prop) : Prop where
  raise : ∀ {s : State} (f : FaultCode), P s → Q (s.raise f .inflate)
  bit : ∀ {s : State}, s.BitsLeft 1 → P s → P (s.skip 1)

/-- `P` is kept by `align`, by `emit`, and by the two count registers that go down with it (41_inflate.md R172, R175, R176). -/
structure KeptByOutput (P Q : State → Prop) : Prop extends KeptByReads P Q where
  align : ∀ {s : State}, P s → P s.align
  below : ∀ {s : State} (b : Byte), s.regs.rawLen ≠ s.regs.rawCap → P s → P (s.appendRaw b)
  grown : ∀ {s : State} (b : Byte), s.regs.rawLen = s.regs.rawCap → s.regs.rawCap.toNat < s.params.rawMax → P s →
    P (s.grown.appendRaw b)
  storedLen : ∀ {s : State} (n : Nat), P s → P { s with u1 := { s.u1 with storedLen := n } }
  matchLen : ∀ {s : State} (n : Nat), P s → P { s with u1 := { s.u1 with matchLen := n } }

/-- Every table RAM has the size it had, or its own (10_state.md R39). -/
abbrev InflateUnit.SizedLike (u v : InflateUnit) : Prop :=
  (u.clLen.length = v.clLen.length ∨ u.clLen.length = 19) ∧ (u.llLen.length = v.llLen.length ∨ u.llLen.length = 288) ∧
  (u.dLen.length = v.dLen.length ∨ u.dLen.length = 32)

theorem sizedLike_of_eq {u v : InflateUnit} (h1 : u.clLen = v.clLen) (h2 : u.llLen = v.llLen) (h3 : u.dLen = v.dLen) :
    u.SizedLike v := ⟨.inl (h1 ▸ rfl), .inl (h2 ▸ rfl), .inl (h3 ▸ rfl)⟩

/-- `P` is kept by all of U1 while INFLATE runs; `Q` holds when it has ended. -/
structure KeptByInflate (P Q : State → Prop) : Prop extends KeptByOutput P Q where
  unit : ∀ {s : State} (u : InflateUnit), u.SizedLike s.u1 → P s → P { s with u1 := u }
  await : ∀ {s : State} (a : Await), a.isU1 = true → P s → P (s.await a)
  finish : ∀ {s : State}, P s → Q s.endInflate

/-- The format of the value a unit reads next. -/
def Await.format : Await → Format
  | .header => .hdr
  | .body => .body
  | .counts => .counts
  | .metaLength => .metaLength
  | .codeLengths => .codeLengths
  | .clSymbol => .cl
  | .llSymbol => .ll
  | .dSymbol => .d
  | .scanline => .filter
  | .blend => .blend
  | .dispose => .dispose

namespace KeptByReads

variable {P Q : State → Prop} (k : KeptByReads P Q)
include k

theorem getbit {s : State} (h : P s) : s.getbit.Ends (fun _ => P) Q := by
  obtain ⟨hb, he⟩ | ⟨-, he⟩ := getbit_cases s <;> rw [he]
  · exact .ok (k.bit hb h)
  · exact .raised (k.raise .inputExhausted h)

theorem getbits : ∀ (n : Nat) {s : State}, P s → (s.getbits n).Ends (fun _ => P) Q
  | 0, _, h => .ok h
  | n + 1, _, h => (k.getbit h).bind fun _ _ h => (getbits n h).bind fun _ _ h => .ok h

theorem getbyte {s : State} (h : P s) : s.getbyte.Ends (fun _ => P) Q := k.getbits 8 h

theorem getLe16 {s : State} (h : P s) : s.getLe16.Ends (fun _ => P) Q :=
  (k.getbyte h).bind fun _ _ h => (k.getbyte h).bind fun _ _ h => .ok h

theorem decodeLoop (t : List Nat) : ∀ (fuel len code : Nat) {s : State}, P s →
    (State.decodeLoop t fuel len code s).Ends (fun _ => P) Q
  | 0, _, _, _, h => .raised (k.raise .noCode h)
  | fuel + 1, len, code, _, h => (k.getbit h).bind fun b s h => by
    cases symbolOf t (len + 1) (code * 2 + b) with
    | some sym => exact .ok h
    | none => exact decodeLoop t fuel (len + 1) (code * 2 + b) h

theorem decodeSymbol (t : List Nat) {s : State} (h : P s) : (s.decodeSymbol t).Ends (fun _ => P) Q := k.decodeLoop t _ 0 0 h

/-- The length of a MATCH, after which its distance is awaited (41_inflate.md R198). -/
theorem lengthPart {P' : State → Prop}
    (hend : ∀ {s : State} (n : Nat), P s → P' ({ s with u1 := { s.u1 with matchLen := n } }.await .dSymbol))
    {s t : State} {sym : Nat} (h : P s) (he : s.lengthPart sym = .next t) : P' t ∨ Q t := by
  unfold State.lengthPart at he
  exact Res.Ends.outcome (P := fun _ => P') he ((k.getbits _ h).bind fun _ _ h => .ok (hend _ h))

/-- What is read next, and the fields latched meanwhile (41_inflate.md R180, R186). -/
theorem fetch (latch : ∀ {s : State} (u : InflateUnit), u.SizedLike s.u1 → P s → P { s with u1 := u }) {s : State} (a : Await)
    (h : P s) : (s.fetch a).Ends (fun v s => v.1 = a.format ∧ P s) Q := by
  cases a with
  | header =>
    refine (k.getbit h).bind fun b _ h => Res.Ends.bind (P := fun _ => P) (k.getbits 2 ?_) fun _ _ h => .ok ⟨rfl, h⟩
    exact latch _ (sizedLike_of_eq rfl rfl rfl) h
  | counts =>
    refine (k.getbits 5 h).bind fun _ _ h => Res.Ends.bind (P := fun _ => P) (k.getbits 5 ?_) fun _ _ h =>
      Res.Ends.bind (P := fun _ => P) (k.getbits 4 ?_) fun _ _ h => .ok ⟨rfl, h⟩
    · exact latch _ (sizedLike_of_eq rfl rfl rfl) h
    · exact latch _ (sizedLike_of_eq rfl rfl rfl) h
  | metaLength => exact (k.getbits 3 h).bind fun _ _ h => .ok ⟨rfl, h⟩
  | clSymbol => exact (k.decodeSymbol _ h).bind fun _ _ h => .ok ⟨rfl, h⟩
  | llSymbol => exact (k.decodeSymbol _ h).bind fun _ _ h => .ok ⟨rfl, h⟩
  | dSymbol => exact (k.decodeSymbol _ h).bind fun _ _ h => .ok ⟨rfl, h⟩
  | body | codeLengths | scanline | blend | dispose => exact .ok ⟨rfl, h⟩

end KeptByReads

namespace KeptByOutput

variable {P Q : State → Prop} (k : KeptByOutput P Q)
include k

theorem emit (b : Byte) {s : State} (h : P s) : (s.emit b).Ends (fun _ => P) Q := by
  by_cases hc : s.regs.rawLen = s.regs.rawCap
  · by_cases hm : s.regs.rawCap.toNat < s.params.rawMax
    · rw [emit_grows hc hm]
      exact .ok (k.grown b hc hm h)
    · rw [emit_overflows hc (Nat.le_of_not_lt hm)]
      exact .raised (k.raise .rawOverflow h)
  · rw [emit_below hc]
    exact .ok (k.below b hc h)

theorem copy (distance : Nat) : ∀ (n : Nat) {s : State}, P s → (s.copy distance n).Ends (fun _ => P) Q
  | 0, _, h => .ok h
  | n + 1, _, h => (k.emit _ h).bind fun _ _ h => copy distance n (k.matchLen n h)

theorem copyStored : ∀ (n : Nat) {s : State}, P s → (s.copyStored n).Ends (fun _ => P) Q
  | 0, _, h => .ok h
  | n + 1, _, h => (k.getbyte h).bind fun _ _ h => (k.emit _ h).bind fun _ _ h => copyStored n (k.storedLen n h)

/-- A stored block ends as `endBlock` ends it (41_inflate.md R183). -/
theorem execStored {P' : State → Prop} (hend : ∀ {s : State}, P s → P' s.endBlock) {s t : State} (h : P s)
    (he : execStored s = .next t) : P' t ∨ Q t :=
  Res.Ends.outcome (P := fun _ => P') he <| (k.getLe16 (k.align h)).bind fun len _ h =>
    (k.getLe16 (k.storedLen len h)).bind fun _ _ h => (k.copyStored len h).bind fun _ _ h => .ok (hend h)

/-- The distance of a MATCH and the copy, after which the next symbol is awaited (41_inflate.md R198). -/
theorem distancePart {P' : State → Prop} (hmatch : ∀ {s : State} (n : Nat), P s → P { s with u1 := { s.u1 with matchDist := n } })
    (hend : ∀ {s : State}, P s → P' (s.await .llSymbol)) {s t : State} {d : Nat} (h : P s)
    (he : s.distancePart d = .next t) : P' t ∨ Q t := by
  refine Res.Ends.outcome (P := fun _ => P') he ((k.getbits (distExtra d) h).bind fun e s h => ?_)
  dsimp only
  split
  · exact .raised (k.raise .distanceTooFar (hmatch _ h))
  · exact (k.copy _ _ (hmatch _ h)).bind fun _ _ h => .ok (hend h)

end KeptByOutput

/-! ### The values read in each format, and what they do -/

/-- A value that is read is the instruction it decodes to. -/
theorem run_next {s t : State} {f : Format} {w : Nat} (h : s.run f w = .next t) : ∃ i, decode f w = .ok i ∧ exec i s = .next t := by
  unfold State.run at h
  split at h
  · exact ⟨_, ‹_›, h⟩
  · cases h

/-- A block header (41_inflate.md R180). -/
theorem run_hdr {s t : State} {w : Nat} (h : s.run .hdr w = .next t) :
    t = { s with u1 := { s.u1 with bfinal := BitVec.ofNat 1 w, btype := BitVec.ofNat 2 (w / 2) } }.await .body := by
  obtain ⟨i, hd, he⟩ := run_next h
  simp only [decode] at hd
  split_ifs at hd
  cases hd
  exact (Host.Outcome.next.inj he).symm

/-- A block's body (41_inflate.md R179, R184, R185). -/
theorem run_body {s t : State} {w : Nat} (h : s.run .body w = .next t) :
    (w / 2 % 4 = 0 ∧ execStored s = .next t) ∨
    (w / 2 % 4 = 1 ∧ t = { s with u1 := { s.u1 with llLen := fixedLl, dLen := fixedD } }.await .llSymbol) ∨
    (w / 2 % 4 = 2 ∧ t = s.await .counts) ∨ (w / 2 % 4 = 3 ∧ t = s.raise .badBtype .inflate) := by
  obtain ⟨i, hd, he⟩ := run_next h
  simp only [decode, decodeBody] at hd
  split_ifs at hd
  split at hd <;> cases hd
  case h_1 hw => exact .inl ⟨hw, he⟩
  case h_2 hw => exact .inr (.inl ⟨hw, (Host.Outcome.next.inj he).symm⟩)
  case h_3 hw => exact .inr (.inr (.inl ⟨hw, (Host.Outcome.next.inj he).symm⟩))
  case h_4 h0 h1 h2 =>
    have h3 : w / 2 % 4 ≠ 0 ∧ w / 2 % 4 ≠ 1 ∧ w / 2 % 4 ≠ 2 := ⟨h0, h1, h2⟩
    exact .inr (.inr (.inr ⟨by omega, (Host.Outcome.next.inj he).symm⟩))

/-- The counts of a dynamic block (41_inflate.md R186, R187). -/
theorem run_counts {s t : State} {w : Nat} (h : s.run .counts w = .next t) :
    ∃ hlit hdist hclen, hclen ≤ 19 ∧ t = { s with u1 := { s.u1 with
      hlit := hlit, hdist := hdist, hclen := hclen, metaIdx := 0, clLen := List.replicate 19 0 } }.await .metaLength := by
  obtain ⟨i, hd, he⟩ := run_next h
  simp only [decode] at hd
  split_ifs at hd
  cases hd
  refine ⟨_, _, _, ?_, (Host.Outcome.next.inj he).symm⟩
  have := (BitVec.ofNat 4 (w / 2 ^ 10)).isLt
  omega

/-- One meta code length written (41_inflate.md R187). -/
def State.putMetaLength (s : State) (v : BitVec 3) : State :=
  { s with u1 := { s.u1 with clLen := s.u1.clLen.set (clOrder.getD s.u1.metaIdx 0) v, metaIdx := s.u1.metaIdx + 1 } }

/-- A meta code length: one more follows, or the table is built (41_inflate.md R187). -/
theorem run_metaLength {s t : State} {w : Nat} (h : s.run .metaLength w = .next t) : ∃ v,
    (s.u1.metaIdx + 1 < s.u1.hclen ∧ t = s.putMetaLength v) ∨
    (t = (s.putMetaLength v).raise .oversubscribed .inflate) ∨ t = (s.putMetaLength v).await .codeLengths := by
  obtain ⟨i, hd, he⟩ := run_next h
  simp only [decode] at hd
  split_ifs at hd
  cases hd
  refine ⟨BitVec.ofNat 3 w, ?_⟩
  simp only [exec, execDynMetaLengths] at he
  split_ifs at he with h1 h2
  · exact .inl ⟨h1, (Host.Outcome.next.inj he).symm⟩
  · exact .inr (.inl (Host.Outcome.next.inj he).symm)
  · exact .inr (.inr (Host.Outcome.next.inj he).symm)

/-- The start of the code-length sequence (41_inflate.md R188). -/
theorem run_codeLengths {s t : State} {w : Nat} (h : s.run .codeLengths w = .next t) :
    t = { s with u1 := { s.u1 with seq := [] } }.await .clSymbol := by
  obtain ⟨i, hd, he⟩ := run_next h
  simp only [decode] at hd
  split_ifs at hd
  cases hd
  exact (Host.Outcome.next.inj he).symm

/-- A meta symbol: lengths are appended, after extra bits for a repeat, or a repeat comes first (41_inflate.md R189 to R192). -/
theorem run_cl {s t : State} {w : Nat} (h : s.run .cl w = .next t) :
    (∃ v, t = s.pushLengths 1 v) ∨ t = s.raise .repeatNoPrev .inflate ∨
    ∃ n base v, ((s.getbits n).bind fun e s => .ok () (s.repeatLengths (base + e) v)).outcome = .next t := by
  obtain ⟨i, hd, he⟩ := run_next h
  simp only [decode, decodeCl] at hd
  split_ifs at hd
  · cases hd
    exact .inl ⟨_, (Host.Outcome.next.inj he).symm⟩
  · split at hd <;> cases hd
    case h_1 =>
      simp only [exec, execCl16] at he
      split at he
      · exact .inr (.inl (Host.Outcome.next.inj he).symm)
      · exact .inr (.inr ⟨_, _, _, he⟩)
    case h_2 => exact .inr (.inr ⟨3, 3, 0, he⟩)
    case h_3 => exact .inr (.inr ⟨7, 11, 0, he⟩)

/-- A literal/length symbol (41_inflate.md R193, R195, R196, R198). -/
theorem run_ll {s t : State} {w : Nat} (h : s.run .ll w = .next t) :
    (∃ b, (s.emit b).outcome = .next t) ∨ t = s.endBlock ∨ s.lengthPart w = .next t ∨ t = s.raise .badLengthSymbol .inflate := by
  obtain ⟨i, hd, he⟩ := run_next h
  simp only [decode, decodeLl] at hd
  split_ifs at hd
  · cases hd
    exact .inl ⟨_, he⟩
  · split at hd <;> cases hd
    case h_1 => exact .inr (.inl (Host.Outcome.next.inj he).symm)
    case h_31 | h_32 => exact .inr (.inr (.inr (Host.Outcome.next.inj he).symm))
    all_goals exact .inr (.inr (.inl he))

/-- A distance symbol (41_inflate.md R193, R198). -/
theorem run_d {s t : State} {w : Nat} (h : s.run .d w = .next t) :
    s.distancePart w = .next t ∨ t = s.raise .badDistanceSymbol .inflate := by
  obtain ⟨i, hd, he⟩ := run_next h
  simp only [decode, decodeD] at hd
  split at hd <;> cases hd
  case h_31 | h_32 => exact .inr (Host.Outcome.next.inj he).symm
  all_goals exact .inl he

/-! ### What every element of the stream keeps -/

theorem fixedLl_length : fixedLl.length = 288 := by
  rw [fixedLl, List.length_append, List.length_append, List.length_append]
  rw [List.length_replicate, List.length_replicate, List.length_replicate, List.length_replicate]

theorem fixedD_length : fixedD.length = 32 := by decide

theorem padTable_length (n : Nat) (l : List (BitVec 4)) : (padTable n l).length = n := by simp [padTable]

/-- The two tables written at the end of the code-length sequence (41_inflate.md R188). -/
def State.putTables (s : State) : State :=
  { s with u1 := { s.u1 with
    llLen := padTable 288 (s.u1.seq.take s.u1.hlit), dLen := padTable 32 ((s.u1.seq.drop s.u1.hlit).take s.u1.hdist) } }

theorem finishLengths_cases (s : State) :
    s.finishLengths = s.putTables.raise .oversubscribed .inflate ∨ s.finishLengths = s.putTables.await .llSymbol := by
  unfold State.finishLengths
  dsimp only
  split_ifs
  · exact .inl rfl
  · exact .inl rfl
  · exact .inr rfl

/-- `r` code lengths `v` appended to `SEQ` (41_inflate.md R188). -/
def State.appendLengths (s : State) (r : Nat) (v : BitVec 4) : State :=
  { s with u1 := { s.u1 with seq := s.u1.seq ++ List.replicate r v } }

theorem pushLengths_cases (s : State) (r : Nat) (v : BitVec 4) :
    s.pushLengths r v = s.appendLengths r v ∨ s.pushLengths r v = (s.appendLengths r v).finishLengths := by
  unfold State.pushLengths
  dsimp only
  split_ifs
  · exact .inl rfl
  · exact .inr rfl

namespace KeptByInflate

variable {P Q : State → Prop} (k : KeptByInflate P Q)
include k

theorem endBlock {s : State} (h : P s) : P s.endBlock ∨ Q s.endBlock := by
  unfold State.endBlock
  split
  · exact .inr (k.finish h)
  · exact .inl (k.await .header rfl h)

theorem finishLengths {s : State} (h : P s) : P s.finishLengths ∨ Q s.finishLengths := by
  have hp : P s.putTables := k.unit _ ⟨.inl rfl, .inr (padTable_length _ _), .inr (padTable_length _ _)⟩ h
  obtain he | he := finishLengths_cases s <;> rw [he]
  · exact .inr (k.raise .oversubscribed hp)
  · exact .inl (k.await .llSymbol rfl hp)

theorem pushLengths {s : State} (r : Nat) (v : BitVec 4) (h : P s) : P (s.pushLengths r v) ∨ Q (s.pushLengths r v) := by
  have hp : P (s.appendLengths r v) := k.unit _ ⟨.inl rfl, .inl rfl, .inl rfl⟩ h
  obtain he | he := pushLengths_cases s r v <;> rw [he]
  · exact .inl hp
  · exact k.finishLengths hp

theorem repeatLengths {s : State} (r : Nat) (v : BitVec 4) (h : P s) : P (s.repeatLengths r v) ∨ Q (s.repeatLengths r v) := by
  unfold State.repeatLengths
  split
  · exact .inr (k.raise .repeatOverrun h)
  · exact k.pushLengths r v h

/-- The execution of whatever value was read in a format of U1. -/
theorem run {s t : State} {a : Await} {w : Nat} (ha : a.isU1 = true) (h : P s) (he : s.run a.format w = .next t) : P t ∨ Q t := by
  cases a with
  | header =>
    obtain rfl := run_hdr he
    exact .inl (k.await .body rfl (k.unit _ (sizedLike_of_eq rfl rfl rfl) h))
  | body =>
    obtain ⟨-, he⟩ | ⟨-, rfl⟩ | ⟨-, rfl⟩ | ⟨-, rfl⟩ := run_body he
    · exact (k.execStored (P' := fun t => P t ∨ Q t) k.endBlock h he).elim id .inr
    · exact .inl (k.await .llSymbol rfl (k.unit _ ⟨.inl rfl, .inr fixedLl_length, .inr fixedD_length⟩ h))
    · exact .inl (k.await .counts rfl h)
    · exact .inr (k.raise .badBtype h)
  | counts =>
    obtain ⟨_, _, _, -, rfl⟩ := run_counts he
    exact .inl (k.await .metaLength rfl (k.unit _ ⟨.inr List.length_replicate, .inl rfl, .inl rfl⟩ h))
  | metaLength =>
    obtain ⟨v, ht⟩ := run_metaLength he
    have hp : P (s.putMetaLength v) := k.unit _ ⟨.inl (List.length_set ..), .inl rfl, .inl rfl⟩ h
    obtain ⟨-, rfl⟩ | rfl | rfl := ht
    · exact .inl hp
    · exact .inr (k.raise .oversubscribed hp)
    · exact .inl (k.await .codeLengths rfl hp)
  | codeLengths =>
    obtain rfl := run_codeLengths he
    exact .inl (k.await .clSymbol rfl (k.unit _ (sizedLike_of_eq rfl rfl rfl) h))
  | clSymbol =>
    obtain ⟨v, rfl⟩ | rfl | ⟨n, base, v, he⟩ := run_cl he
    · exact k.pushLengths 1 v h
    · exact .inr (k.raise .repeatNoPrev h)
    · exact (Res.Ends.outcome (P := fun _ t => P t ∨ Q t) he
        ((k.getbits n h).bind fun e _ h => .ok (k.repeatLengths _ v h))).elim id .inr
  | llSymbol =>
    obtain ⟨b, he⟩ | rfl | he | rfl := run_ll he
    · exact Res.Ends.outcome (P := fun _ => P) he (k.emit b h)
    · exact k.endBlock h
    · exact k.lengthPart (fun n h => k.await .dSymbol rfl (k.unit _ (sizedLike_of_eq rfl rfl rfl) h)) h he
    · exact .inr (k.raise .badLengthSymbol h)
  | dSymbol =>
    obtain he | rfl := run_d he
    · exact k.distancePart (fun n h => k.unit _ (sizedLike_of_eq rfl rfl rfl) h) (k.await .llSymbol rfl) h he
    · exact .inr (k.raise .badDistanceSymbol h)
  | scanline => cases ha
  | blend => cases ha
  | dispose => cases ha

/-- One piece of an element of the stream. -/
theorem piece {s t : State} {a : Await} (ha : a.isU1 = true) (h : P s) (he : s.piece a = .next t) : P t ∨ Q t := by
  have hf := k.fetch k.unit a h
  obtain ⟨f, w, s', hs, hp⟩ | ⟨s', hs, hp⟩ := piece_cases s a <;> rw [hs] at hf <;> rw [hp] at he <;> cases hf
  case inl.ok hf =>
    obtain ⟨rfl, h⟩ := hf
    exact k.run ha h he
  case inr.raised hf => exact .inr (Host.Outcome.next.inj he ▸ hf)

end KeptByInflate

end Sys2Proof.Machine
end

section
/-! Units U2 to U4: what each value read there does, and what it leaves alone (42_scanline.md R240, 44_compositor.md R291). -/

namespace Sys2Proof.Machine

/-! ### A scanline -/

/-- A filter byte: the line, or BAD_FILTER_TYPE (42_scanline.md R246 to R252). -/
theorem run_filter {s t : State} {w : Nat} (h : s.run .filter w = .next t) :
    (∃ ft, t = s.reconLine ft) ∨ t = s.raise .badFilterType .scanline := by
  obtain ⟨i, hd, he⟩ := run_next h
  simp only [decode, decodeFilter] at hd
  split_ifs at hd
  split at hd <;> cases hd
  case h_1 => exact .inl ⟨.none, (Host.Outcome.next.inj he).symm⟩
  case h_2 => exact .inl ⟨.sub, (Host.Outcome.next.inj he).symm⟩
  case h_3 => exact .inl ⟨.up, (Host.Outcome.next.inj he).symm⟩
  case h_4 => exact .inl ⟨.average, (Host.Outcome.next.inj he).symm⟩
  case h_5 => exact .inl ⟨.paeth, (Host.Outcome.next.inj he).symm⟩
  case h_6 => exact .inr (Host.Outcome.next.inj he).symm

/-- The end of RECON: the tile has the image's size (42_scanline.md R240). -/
def State.endRecon (s : State) : State :=
  { s with u2 := { s.u2 with prior := s.u2.cur }, regs := { s.regs with tileW := s.regs.fW, tileH := s.regs.fH } }.complete .tile

/-- After a line: the state of U2 moves on, or RECON ends. -/
theorem nextLine_cases (s : State) : (∃ u, s.nextLine = { s with u2 := u }) ∨ s.nextLine = s.endRecon := by
  unfold State.nextLine
  split_ifs
  · exact .inl ⟨_, rfl⟩
  · exact .inl ⟨_, rfl⟩
  · exact .inr rfl

/-- One line: its pixels are in `TILE` and U2 moves on, or RECON ends, or an index was outside the palette (42_scanline.md R240). -/
theorem reconLine_cases (s : State) (ft : Filter) : ∃ m u,
    s.reconLine ft = { s with buf := { s.buf with tile := m }, u2 := u } ∨
    s.reconLine ft = State.endRecon { s with buf := { s.buf with tile := m }, u2 := u } ∨
    s.reconLine ft = State.raise { s with buf := { s.buf with tile := m }, u2 := u } .paletteIndexRange .scanline := by
  obtain ⟨m, hw | hw⟩ := writePixels_cases s.currentPass.pw (s.takeLine ft) 0
  · have he : s.reconLine ft = State.nextLine { s.takeLine ft with buf := { s.buf with tile := m } } := by
      rw [State.reconLine, hw]; rfl
    obtain ⟨u, hn⟩ | hn := nextLine_cases { s.takeLine ft with buf := { s.buf with tile := m } }
    · exact ⟨m, u, .inl (he.trans hn)⟩
    · exact ⟨m, (s.takeLine ft).u2, .inr (.inl (he.trans hn))⟩
  · exact ⟨m, (s.takeLine ft).u2, .inr (.inr (by rw [State.reconLine, hw]; rfl))⟩

/-- Everything a scanline changes, by how it ends: the next line follows, RECON is complete, or it has faulted. -/
theorem run_filter_frame {s t : State} {w : Nat} (h : s.run .filter w = .next t) : s.ReconFrame t ∧
    ((t.phase = s.phase ∧ t.valid = s.valid ∧ t.regs.err = s.regs.err) ∨
      (t.phase = .done ∧ t.valid = { s.valid with tile := true } ∧ t.regs.err = s.regs.err) ∨
      (t.phase = .fault ∧ t.valid = s.valid)) := by
  obtain ⟨ft, rfl⟩ | rfl := run_filter h
  · obtain ⟨m, u, he | he | he⟩ := reconLine_cases s ft <;> rw [he]
    · exact ⟨by and_intros <;> rfl, .inl ⟨rfl, rfl, rfl⟩⟩
    · exact ⟨by and_intros <;> rfl, .inr (.inl ⟨rfl, rfl, rfl⟩)⟩
    · exact ⟨by and_intros <;> rfl, .inr (.inr ⟨rfl, rfl⟩)⟩
  · exact ⟨by and_intros <;> rfl, .inr (.inr ⟨rfl, rfl⟩)⟩

/-! ### A blend or dispose mode -/

/-- Rewriting the rectangle changes only `CANVAS` (44_compositor.md R291). -/
theorem mapRows_canvas (f : State → Nat → Nat → Pixel) : ∀ (n : Nat) (s : State), ∃ m,
    s.mapRows f n = { s with buf := { s.buf with canvas := m } }
  | 0, s => ⟨s.buf.canvas, rfl⟩
  | n + 1, s => by
    obtain ⟨m, hm⟩ := mapRows_canvas f n (s.writeBytes .canvas (s.canvasIndex 0 (s.regs.fH.toNat - (n + 1)))
      ((List.range s.regs.fW.toNat).flatMap (fun i => (f s (s.regs.fH.toNat - (n + 1)) i).bytes)))
    exact ⟨m, hm⟩

theorem mapRect_canvas (s : State) (f : State → Nat → Nat → Pixel) : ∃ m, s.mapRect f = { s with buf := { s.buf with canvas := m } } :=
  mapRows_canvas f _ s

/-- The frame's count moves on, by a free value beyond 32 bits (log entry 11). -/
theorem countFrame_state (s : State) : ∃ n c, s.countFrame = { s with regs := { s.regs with frameCnt := n }, freeCtr := c } := by
  unfold State.countFrame
  split
  · exact ⟨_, _, rfl⟩
  · exact ⟨_, _, rfl⟩

/-- Everything the snapshot changes (44_compositor.md R297). -/
theorem snapshot_state (s : State) : ∃ m l w h n c, s.snapshot = { s with
    buf := { s.buf with out := m }, regs := { s.regs with outLen := l, outW := w, outH := h, frameCnt := n }, freeCtr := c } := by
  obtain ⟨n, c, hc⟩ := countFrame_state { s.copyBuf .canvas .out s.canvasBytes with regs := { s.regs with
    outLen := reg s.canvasBytes, outW := s.regs.canvasW, outH := s.regs.canvasH } }
  exact ⟨_, _, _, _, n, c, hc⟩

/-- A blend mode: the canvas is rewritten and the snapshot taken, or the mode is reserved (44_compositor.md R294, R295, R307). -/
theorem run_blend {s t : State} {w : Nat} (h : s.run .blend w = .next t) :
    (∃ f, t = (s.mapRect f).snapshot.setPhase (.busy .dispose)) ∨ (2 ≤ w / 16 % 4 ∧ t = s.raise .badMode .compositor) := by
  obtain ⟨i, hd, he⟩ := run_next h
  simp only [decode, decodeBlend] at hd
  split_ifs at hd
  split at hd <;> cases hd
  case h_1 => exact .inl ⟨_, (Host.Outcome.next.inj he).symm⟩
  case h_2 => exact .inl ⟨_, (Host.Outcome.next.inj he).symm⟩
  case h_3 h0 h1 =>
    have hw : w / 16 % 4 ≠ 0 ∧ w / 16 % 4 ≠ 1 := ⟨h0, h1⟩
    exact .inr ⟨by omega, (Host.Outcome.next.inj he).symm⟩

/-- A dispose mode (44_compositor.md R298 to R300, R307). -/
theorem run_dispose {s t : State} {w : Nat} (h : s.run .dispose w = .next t) :
    (w % 4 = 0 ∧ t = s.endCompose) ∨ (w % 4 = 1 ∧ ∃ f, t = (s.mapRect f).endCompose) ∨
    (w % 4 = 2 ∧ t = ((s.copyBuf .save .canvas s.canvasBytes).setValid .save false).endCompose) ∨
    (w % 4 = 3 ∧ t = s.raise .badMode .compositor) := by
  obtain ⟨i, hd, he⟩ := run_next h
  simp only [decode, decodeDispose] at hd
  split_ifs at hd
  split at hd <;> cases hd
  case h_1 hw => exact .inl ⟨hw, (Host.Outcome.next.inj he).symm⟩
  case h_2 hw => exact .inr (.inl ⟨hw, _, (Host.Outcome.next.inj he).symm⟩)
  case h_3 hw => exact .inr (.inr (.inl ⟨hw, (Host.Outcome.next.inj he).symm⟩))
  case h_4 h0 h1 h2 =>
    have hw : w % 4 ≠ 0 ∧ w % 4 ≠ 1 ∧ w % 4 ≠ 2 := ⟨h0, h1, h2⟩
    exact .inr (.inr (.inr ⟨by omega, (Host.Outcome.next.inj he).symm⟩))

/-- Everything a blend mode changes: the dispose mode follows, or the mode is reserved. -/
theorem run_blend_frame {s t : State} {w : Nat} (h : s.run .blend w = .next t) :
    (s.ComposeFrame t ∧ t.phase = .busy .dispose ∧ t.valid = s.valid) ∨ (2 ≤ w / 16 % 4 ∧ t = s.raise .badMode .compositor) := by
  refine (run_blend h).imp_left ?_
  rintro ⟨f, rfl⟩
  obtain ⟨m, hm⟩ := mapRect_canvas s f
  obtain ⟨o, l, x, y, n, c, hs⟩ := snapshot_state (s.mapRect f)
  rw [hs, hm]
  exact ⟨by and_intros <;> rfl, rfl, rfl⟩

/-- Everything a dispose mode changes: COMPOSE is complete, and the save of restorePrevious is spent (44_compositor.md R300), or the mode
is reserved. -/
theorem run_dispose_frame {s t : State} {w : Nat} (h : s.run .dispose w = .next t) :
    (s.ComposeFrame t ∧ t.phase = .done ∧
      t.valid = { s.valid with canvas := true, out := true, save := if w % 4 = 2 then false else s.valid.save }) ∨
    (w % 4 = 3 ∧ t = s.raise .badMode .compositor) := by
  obtain ⟨hm, rfl⟩ | ⟨hm, f, rfl⟩ | ⟨hm, rfl⟩ | hr := run_dispose h
  · exact .inl ⟨by and_intros <;> rfl, rfl, by rw [if_neg (by omega)]; rfl⟩
  · obtain ⟨m, he⟩ := mapRect_canvas s f
    rw [he]
    exact .inl ⟨by and_intros <;> rfl, rfl, by rw [if_neg (by omega)]; rfl⟩
  · obtain ⟨m, he⟩ := copyBuf_state s .save .canvas s.canvasBytes
    rw [he]
    exact .inl ⟨by and_intros <;> rfl, rfl, by rw [if_pos hm]; rfl⟩
  · exact .inr hr

/-! ### What follows what -/

/-- A finished `getbits(n)` or symbol leaves the unit where it was, and a fault ends the command: the phase as a property that U1
keeps within an element (60_exceptions.md R390). -/
theorem phase_keptByOutput (p : Phase) : KeptByOutput (fun s => s.phase = p) (fun s => s.phase = .fault) where
  raise _ _ := rfl
  bit _ h := h
  align h := h
  below _ _ h := h
  grown _ _ _ h := h
  storedLen _ h := h
  matchLen _ h := h

/-- What was read has the format of what was awaited, in a unit that has not moved. -/
theorem fetch_ok {s s' : State} {a : Await} {f : Format} {w : Nat} (h : s.fetch a = .ok (f, w) s') :
    f = a.format ∧ s'.phase = s.phase := by
  have hf := (phase_keptByOutput s.phase).fetch (fun _ _ h => h) a rfl
  rw [h] at hf
  cases hf with
  | ok hf => exact hf

/-- A read that raises leaves FAULT (60_exceptions.md R390). -/
theorem fetch_raised {s s' : State} {a : Await} (h : s.fetch a = .raised s') : s'.phase = .fault := by
  have hf := (phase_keptByOutput s.phase).fetch (fun _ _ h => h) a rfl
  rw [h] at hf
  cases hf with
  | raised hf => exact hf

/-- Where the machine can stand after one piece: in FAULT, or where the row of the table that was awaited leads. -/
def Await.successors (a : Await) : List Phase :=
  .fault :: match a with
  | .header => [.busy .body]
  | .body => [.busy .header, .done, .busy .llSymbol, .busy .counts]
  | .counts => [.busy .metaLength]
  | .metaLength => [.busy .metaLength, .busy .codeLengths]
  | .codeLengths => [.busy .clSymbol]
  | .clSymbol => [.busy .clSymbol, .busy .llSymbol]
  | .llSymbol => [.busy .llSymbol, .busy .dSymbol, .busy .header, .done]
  | .dSymbol => [.busy .llSymbol]
  | .scanline => [.busy .scanline, .done]
  | .blend => [.busy .dispose]
  | .dispose => [.done]

theorem endBlock_phase (s : State) : s.endBlock.phase = .busy .header ∨ s.endBlock.phase = .done := by
  unfold State.endBlock
  split
  · exact .inr rfl
  · exact .inl rfl

theorem pushLengths_phase (s : State) (r : Nat) (v : BitVec 4) :
    (s.pushLengths r v).phase = s.phase ∨ (s.pushLengths r v).phase = .fault ∨ (s.pushLengths r v).phase = .busy .llSymbol := by
  obtain he | he := pushLengths_cases s r v <;> rw [he]
  · exact .inl rfl
  · obtain he | he := finishLengths_cases (s.appendLengths r v) <;> rw [he]
    · exact .inr (.inl rfl)
    · exact .inr (.inr rfl)

theorem repeatLengths_phase (s : State) (r : Nat) (v : BitVec 4) :
    (s.repeatLengths r v).phase = s.phase ∨ (s.repeatLengths r v).phase = .fault ∨
    (s.repeatLengths r v).phase = .busy .llSymbol := by
  unfold State.repeatLengths
  split
  · exact .inr (.inl rfl)
  · exact pushLengths_phase s r v

theorem fault_mem_successors (a : Await) : Phase.fault ∈ a.successors := List.mem_cons_self ..

/-- The value read takes the machine to a successor of what was awaited. -/
theorem run_successor {s t : State} {a : Await} {w : Nat} (ha : s.phase = .busy a) (h : s.run a.format w = .next t) :
    t.phase ∈ a.successors := by
  have k := phase_keptByOutput s.phase
  cases a with
  | header =>
    obtain rfl := run_hdr h
    simp [Await.successors, State.await]
  | body =>
    obtain ⟨-, he⟩ | ⟨-, rfl⟩ | ⟨-, rfl⟩ | ⟨-, rfl⟩ := run_body h
    · obtain (hp | hp) | hp := k.execStored (P' := fun t => t.phase = .busy .header ∨ t.phase = .done)
        (fun {s} _ => endBlock_phase s) rfl he <;> simp [Await.successors, hp]
    · simp [Await.successors, State.await]
    · simp [Await.successors, State.await]
    · exact fault_mem_successors _
  | counts =>
    obtain ⟨_, _, _, -, rfl⟩ := run_counts h
    simp [Await.successors, State.await]
  | metaLength =>
    obtain ⟨v, ⟨-, rfl⟩ | rfl | rfl⟩ := run_metaLength h
    · simp [Await.successors, State.putMetaLength, ha]
    · exact fault_mem_successors _
    · simp [Await.successors, State.await]
  | codeLengths =>
    obtain rfl := run_codeLengths h
    simp [Await.successors, State.await]
  | clSymbol =>
    obtain ⟨v, rfl⟩ | rfl | ⟨n, base, v, he⟩ := run_cl h
    · obtain hp | hp | hp := pushLengths_phase s 1 v <;> simp [Await.successors, hp, ha]
    · exact fault_mem_successors _
    · obtain hp | hp := Res.Ends.outcome (P := fun _ t => t.phase ∈ Await.successors .clSymbol) he <|
        (k.getbits n rfl).bind fun e s' (h : s'.phase = s.phase) => .ok (by
          obtain hp | hp | hp := repeatLengths_phase s' (base + e) v <;> simp [Await.successors, hp, h, ha])
      · exact hp
      · exact hp ▸ fault_mem_successors _
  | llSymbol =>
    obtain ⟨b, he⟩ | rfl | he | rfl := run_ll h
    · obtain hp | hp := Res.Ends.outcome he (k.emit b rfl) <;> simp [Await.successors, hp, ha]
    · obtain hp | hp := endBlock_phase s <;> simp [Await.successors, hp]
    · obtain hp | hp := k.lengthPart (P' := fun t => t.phase = .busy .dSymbol) (fun _ _ => rfl) rfl he <;>
        simp [Await.successors, hp]
    · exact fault_mem_successors _
  | dSymbol =>
    obtain he | rfl := run_d h
    · obtain hp | hp := k.distancePart (P' := fun t => t.phase = .busy .llSymbol) (fun _ h => h) (fun _ => rfl) rfl he <;>
        simp [Await.successors, hp]
    · exact fault_mem_successors _
  | scanline =>
    obtain ⟨-, ⟨hp, -⟩ | ⟨hp, -⟩ | ⟨hp, -⟩⟩ := run_filter_frame h <;> simp [Await.successors, hp, ha]
  | blend =>
    obtain ⟨f, rfl⟩ | ⟨-, rfl⟩ := run_blend h
    · simp [Await.successors]
    · exact fault_mem_successors _
  | dispose =>
    obtain ⟨-, rfl⟩ | ⟨-, f, rfl⟩ | ⟨-, rfl⟩ | ⟨-, rfl⟩ := run_dispose h
    · simp [Await.successors, State.endCompose]
    · simp [Await.successors, State.endCompose]
    · simp [Await.successors, State.endCompose]
    · exact fault_mem_successors _

/-- One piece takes the machine to a successor of what was awaited. -/
theorem piece_successor {s t : State} {a : Await} (ha : s.phase = .busy a) (h : s.piece a = .next t) : t.phase ∈ a.successors := by
  obtain ⟨f, w, s', hs, hp⟩ | ⟨s', hs, hp⟩ := piece_cases s a <;> rw [hp] at h
  · obtain ⟨rfl, hp'⟩ := fetch_ok hs
    exact run_successor (hp'.trans ha) h
  · obtain rfl := Host.Outcome.next.inj h
    exact fetch_raised hs ▸ fault_mem_successors a

/-! ### The pieces of one element -/

/-- Something of an element is left exactly inside a dynamic header, before a distance, and before the body of a fixed or illegal
block (10_state.md R40; log entry 3). -/
theorem rest?_iff (s : State) (b : Await) : s.rest? = some b ↔ s.phase = .busy b ∧
    (b = .counts ∨ b = .metaLength ∨ b = .codeLengths ∨ b = .dSymbol ∨ (b = .body ∧ (s.u1.btype = 1 ∨ s.u1.btype = 3))) := by
  constructor
  · intro h
    refine ⟨phase_of_rest? h, ?_⟩
    unfold State.rest? at h
    split at h <;> simp_all
  · rintro ⟨hp, rfl | rfl | rfl | rfl | ⟨rfl, hb⟩⟩
    case inr.inr.inr.inr => rw [State.rest?, hp]; exact if_pos hb
    all_goals simp [State.rest?, hp]

/-- Nothing of an element is left outside BUSY. -/
theorem rest?_of_not_busy {s : State} (h : s.phase.isBusy = false) : s.rest? = none := by
  cases hr : s.rest? with
  | none => rfl
  | some b => simp [phase_of_rest? hr, Phase.isBusy] at h

/-- An upper bound of the pieces left of the element that has begun: a dynamic header has its counts, at most 19 meta code lengths and
the start of the sequence; every other rest is one piece (41_inflate.md R186, R187). -/
def State.piecesLeft (s : State) : Nat :=
  match s.rest? with
  | none => 0
  | some .counts => 21
  | some .metaLength => s.u1.hclen - (s.u1.metaIdx + 1) + 2
  | some _ => 1

theorem piecesLeft_eq_zero {s : State} (h : s.piecesLeft = 0) : s.rest? = none := by
  unfold State.piecesLeft at h
  split at h
  · assumption
  all_goals omega

/-- One piece at most is left, unless the element is a dynamic header. -/
theorem piecesLeft_le_one {s : State} (h1 : s.phase ≠ .busy .counts) (h2 : s.phase ≠ .busy .metaLength) : s.piecesLeft ≤ 1 := by
  unfold State.piecesLeft
  split
  case h_1 => omega
  case h_2 h => exact absurd (phase_of_rest? h) h1
  case h_3 h => exact absurd (phase_of_rest? h) h2
  case h_4 => omega

theorem piecesLeft_le {s : State} (h : s.phase ≠ .busy .metaLength) : s.piecesLeft ≤ 21 := by
  by_cases h1 : s.phase = .busy .counts
  · simp [State.piecesLeft, State.rest?, h1]
  · exact (piecesLeft_le_one h1 h).trans (by omega)

/-- Nothing is left in these places. -/
theorem piecesLeft_of_phase {s : State} (h : s.phase ∈ [.fault, .busy .clSymbol, .busy .llSymbol]) : s.piecesLeft = 0 := by
  simp only [List.mem_cons, List.not_mem_nil, or_false] at h
  obtain h | h | h := h <;> simp [State.piecesLeft, State.rest?, h]

/-- The counts of a dynamic header are followed by at most 19 meta code lengths (41_inflate.md R186). -/
theorem piece_counts {s t : State} (h : s.piece .counts = .next t) :
    t.phase = .fault ∨ (t.phase = .busy .metaLength ∧ t.u1.metaIdx = 0 ∧ t.u1.hclen ≤ 19) := by
  obtain ⟨f, w, s', hs, hp⟩ | ⟨s', hs, hp⟩ := piece_cases s .counts <;> rw [hp] at h
  · obtain ⟨rfl, -⟩ := fetch_ok hs
    obtain ⟨_, _, _, hc, rfl⟩ := run_counts h
    exact .inr ⟨rfl, rfl, hc⟩
  · exact .inl (Host.Outcome.next.inj h ▸ fetch_raised hs)

/-- Reading bits changes no more than `IPOS`: the state of U1 and the phase stay. -/
theorem unit_keptByReads (u : InflateUnit) (p : Phase) :
    KeptByReads (fun s => s.u1 = u ∧ s.phase = p) (fun s => s.phase = .fault) where
  raise _ _ := rfl
  bit _ h := h

/-- A meta code length is followed by the next one, or by the code-length sequence (41_inflate.md R187). -/
theorem piece_metaLength {s t : State} (h : s.piece .metaLength = .next t) :
    t.phase = .fault ∨ t.phase = .busy .codeLengths ∨ (t.phase = s.phase ∧ t.u1.hclen = s.u1.hclen ∧
      t.u1.metaIdx = s.u1.metaIdx + 1 ∧ s.u1.metaIdx + 1 < s.u1.hclen) := by
  have hf : (s.fetch .metaLength).Ends (fun v s' => v.1 = .metaLength ∧ s'.u1 = s.u1 ∧ s'.phase = s.phase) (·.phase = .fault) :=
    ((unit_keptByReads s.u1 s.phase).getbits 3 ⟨rfl, rfl⟩).bind fun _ _ h => .ok ⟨rfl, h⟩
  obtain ⟨f, w, s', hs, hp⟩ | ⟨s', hs, hp⟩ := piece_cases s .metaLength <;> rw [hs] at hf <;> rw [hp] at h <;> cases hf
  case inl.ok hf =>
    obtain ⟨rfl, hu, hph⟩ := hf
    obtain ⟨v, ⟨hm, rfl⟩ | rfl | rfl⟩ := run_metaLength h
    · rw [hu] at hm
      exact .inr (.inr ⟨hph, congrArg (·.hclen) hu, congrArg (·.metaIdx + 1) hu, hm⟩)
    · exact .inl rfl
    · exact .inr (.inl rfl)
  case inr.raised hf => exact .inl (Host.Outcome.next.inj h ▸ hf)

/-- The body of a fixed or illegal block is one piece (41_inflate.md R184, R185). -/
theorem piece_body_fixed {s t : State} (hb : s.u1.btype = 1 ∨ s.u1.btype = 3) (h : s.piece .body = .next t) :
    t.phase = .fault ∨ t.phase = .busy .llSymbol := by
  have hw : (s.u1.bfinal.toNat + 2 * s.u1.btype.toNat) / 2 % 4 = s.u1.btype.toNat := by
    have := s.u1.bfinal.isLt
    have := s.u1.btype.isLt
    omega
  have hn : s.u1.btype.toNat = 1 ∨ s.u1.btype.toNat = 3 := by
    obtain h | h := hb <;> simp [h]
  obtain ⟨h0, -⟩ | ⟨-, rfl⟩ | ⟨h2, -⟩ | ⟨-, rfl⟩ := run_body (show s.run .body _ = .next t from h)
  · omega
  · exact .inr rfl
  · omega
  · exact .inl rfl

/-- A piece of an element that has begun leaves fewer pieces. -/
theorem piecesLeft_lt {s t : State} {a : Await} (hr : s.rest? = some a) (h : s.piece a = .next t) :
    t.piecesLeft < s.piecesLeft := by
  have hn := piece_successor (phase_of_rest? hr) h
  have hz : t.piecesLeft = 0 → t.piecesLeft < s.piecesLeft := fun hz => by
    refine hz ▸ Nat.pos_of_ne_zero fun h0 => ?_
    rw [piecesLeft_eq_zero h0] at hr
    cases hr
  obtain ⟨ha, rfl | rfl | rfl | rfl | ⟨rfl, hb⟩⟩ := (rest?_iff s a).1 hr
  · obtain hp | ⟨hp, hi, hc⟩ := piece_counts h
    · exact hz (piecesLeft_of_phase (by simp [hp]))
    · simp only [State.piecesLeft, State.rest?, hp, ha]
      omega
  · obtain hp | hp | ⟨hp, hc, hi, hm⟩ := piece_metaLength h
    · exact hz (piecesLeft_of_phase (by simp [hp]))
    · simp only [State.piecesLeft, State.rest?, hp, ha]
      omega
    · simp only [State.piecesLeft, State.rest?, hp, ha]
      omega
  · exact hz (piecesLeft_of_phase ((by decide : Await.successors .codeLengths ⊆ _) hn))
  · exact hz (piecesLeft_of_phase ((by decide : Await.successors .dSymbol ⊆ _) hn))
  · exact hz (piecesLeft_of_phase (by obtain hp | hp := piece_body_fixed hb h <;> simp [hp]))

/-- The first piece of an element leaves no more than a dynamic header. -/
theorem piecesLeft_first {s t : State} {a : Await} (ha : s.phase = .busy a) (hr : s.rest? = none) (h : s.piece a = .next t) :
    t.piecesLeft ≤ 21 := by
  have hn := piece_successor ha h
  refine piecesLeft_le fun hp => ?_
  rw [hp] at hn
  have hc : a = .counts ∨ a = .metaLength := by cases a <;> simp [Await.successors] at hn ⊢
  have hs : s.rest? = some a := (rest?_iff s a).2 ⟨ha, by tauto⟩
  rw [hr] at hs
  cases hs

/-- An element that has pieces enough for its rest ends with nothing left. -/
theorem element_rest? : ∀ (n : Nat) {s t : State} {a : Await}, (∀ u, s.piece a = .next u → u.piecesLeft ≤ n) →
    s.element a n = .next t → t.rest? = none
  | 0, s, t, a, hn, h => piecesLeft_eq_zero (Nat.le_zero.1 (hn t h))
  | n + 1, s, t, a, hn, h => by
    rw [State.element] at h
    split at h
    · rename_i u hu
      split at h
      · rename_i b hb
        refine element_rest? n (fun v hv => ?_) h
        have := piecesLeft_lt hb hv
        have := hn u hu
        omega
      · exact Host.Outcome.next.inj h ▸ ‹_›
    · cases h
    · cases h

/-- A step of a unit that stands at the start of an element ends at the start of an element (10_state.md R40). -/
theorem unitStep_rest? {s t : State} {a : Await} (ha : s.phase = .busy a) (hr : s.rest? = none) (h : s.element a 31 = .next t) :
    t.rest? = none :=
  element_rest? 31 (fun _ hu => (piecesLeft_first ha hr hu).trans (by omega)) h

end Sys2Proof.Machine
end

section
/-! The flags of a running command, an invariant of every step (10_state.md R34, R40, R42; 40_commands.md R143). -/

namespace Sys2Proof.Machine

/-! ### The flags by what runs -/

/-- The flag invariant without its last part: what every piece of an element keeps. -/
def State.FlagsOk (s : State) : Prop :=
  (s.phase ≠ .fault → s.regs.err = 0) ∧
  (s.valid.save = true → (s.phase = .busy .blend ∨ s.phase = .busy .dispose) ∧ s.disposeMode = 2) ∧
  (s.phase = .busy .blend → s.blendMode ≤ 1 ∧ s.disposeMode ≤ 2) ∧
  (s.phase = .busy .dispose → s.disposeMode ≤ 2) ∧
  (s.phase.isU1 = true → s.valid.raw = false ∧ s.iposKnown = false) ∧
  (s.phase = .busy .scanline → s.valid.tile = false) ∧
  (s.phase = .busy .blend ∨ s.phase = .busy .dispose → s.valid.canvas = false ∧ s.valid.out = false)

theorem flagInv_iff (s : State) : s.FlagInv ↔ s.FlagsOk ∧ s.rest? = none := by
  simp only [State.FlagsOk, and_assoc]

/-- While INFLATE runs. -/
def State.InflateFlags (s : State) : Prop :=
  s.phase.isU1 = true ∧ s.regs.err = 0 ∧ s.valid.save = false ∧ s.valid.raw = false ∧ s.iposKnown = false

/-- While nothing runs. -/
def State.RestFlags (s : State) : Prop := s.phase.isBusy = false ∧ (s.phase ≠ .fault → s.regs.err = 0) ∧ s.valid.save = false

/-- While RECON runs. -/
def State.ReconFlags (s : State) : Prop :=
  s.phase = .busy .scanline ∧ s.regs.err = 0 ∧ s.valid.save = false ∧ s.valid.tile = false

/-- While COMPOSE runs. -/
def State.ComposeFlags (s : State) : Prop :=
  (s.phase = .busy .blend ∧ s.blendMode ≤ 1 ∨ s.phase = .busy .dispose) ∧ s.regs.err = 0 ∧ s.disposeMode ≤ 2 ∧
  (s.valid.save = true → s.disposeMode = 2) ∧ s.valid.canvas = false ∧ s.valid.out = false

/-- A machine that makes no step of COMPOSE has no saved canvas. -/
theorem save_of_flagsOk {s : State} (h : s.FlagsOk) (hp : s.phase ≠ .busy .blend) (hp' : s.phase ≠ .busy .dispose) :
    s.valid.save = false := by
  obtain ⟨-, hsave, -⟩ := h
  by_contra hs
  exact (hsave (by simpa using hs)).1.elim hp hp'

theorem flagsOk_of_rest {s : State} (h : s.RestFlags) : s.FlagsOk := by
  obtain ⟨hb, he, hs⟩ := h
  have hno : ∀ a, s.phase ≠ .busy a := fun a hp => by rw [hp] at hb; cases hb
  have hu : s.phase.isU1 = false := by cases hp : s.phase with
    | busy a => exact absurd hp (hno a)
    | _ => rfl
  exact ⟨he, fun h => by simp [hs] at h, fun h => absurd h (hno _), fun h => absurd h (hno _), fun h => by simp [hu] at h,
    fun h => absurd h (hno _), fun h => h.elim (absurd · (hno _)) (absurd · (hno _))⟩

theorem flagsOk_of_inflate {s : State} (h : s.InflateFlags) : s.FlagsOk := by
  obtain ⟨hu, he, hs, hr⟩ := h
  have hno : ∀ a : Await, a.isU1 = false → s.phase ≠ .busy a := fun a ha hp => by
    rw [hp] at hu
    exact Bool.noConfusion (ha.symm.trans hu)
  exact ⟨fun _ => he, fun h => by simp [hs] at h, fun h => absurd h (hno _ rfl), fun h => absurd h (hno _ rfl), fun _ => hr,
    fun h => absurd h (hno _ rfl), fun h => h.elim (absurd · (hno _ rfl)) (absurd · (hno _ rfl))⟩

theorem flagsOk_of_recon {s : State} (h : s.ReconFlags) : s.FlagsOk := by
  obtain ⟨hp, he, hs, ht⟩ := h
  refine ⟨fun _ => he, fun h => by simp [hs] at h, ?_, ?_, ?_, fun _ => ht, ?_⟩ <;> simp [hp, Phase.isU1, Await.isU1]

theorem flagsOk_of_compose {s : State} (h : s.ComposeFlags) : s.FlagsOk := by
  obtain ⟨hp, he, hd, hs, hc⟩ := h
  obtain ⟨hp, hb⟩ | hp := hp
  · exact ⟨fun _ => he, fun h => ⟨.inl hp, hs h⟩, fun _ => ⟨hb, hd⟩, fun _ => hd, by simp [hp, Phase.isU1, Await.isU1],
      by simp [hp], fun _ => hc⟩
  · exact ⟨fun _ => he, fun h => ⟨.inr hp, hs h⟩, by simp [hp], fun _ => hd, by simp [hp, Phase.isU1, Await.isU1],
      by simp [hp], fun _ => hc⟩

theorem restFlags_of_flagsOk {s : State} (h : s.FlagsOk) (hb : s.phase.isBusy = false) : s.RestFlags :=
  ⟨hb, h.1, save_of_flagsOk h (fun hp => by rw [hp] at hb; cases hb) (fun hp => by rw [hp] at hb; cases hb)⟩

theorem inflateFlags_of_flagsOk {s : State} {a : Await} (h : s.FlagsOk) (hp : s.phase = .busy a) (ha : a.isU1 = true) :
    s.InflateFlags := by
  have hu : s.phase.isU1 = true := by rw [hp]; exact ha
  have hs := save_of_flagsOk h (by rw [hp]; rintro ⟨⟩; cases ha) (by rw [hp]; rintro ⟨⟩; cases ha)
  obtain ⟨he, -, -, -, hr, -⟩ := h
  exact ⟨hu, he (by simp [hp]), hs, hr hu⟩

theorem reconFlags_of_flagsOk {s : State} (h : s.FlagsOk) (hp : s.phase = .busy .scanline) : s.ReconFlags := by
  have hs := save_of_flagsOk h (by simp [hp]) (by simp [hp])
  obtain ⟨he, -, -, -, -, ht, -⟩ := h
  exact ⟨hp, he (by simp [hp]), hs, ht hp⟩

/-- A fault leaves the flags at rest, if no canvas is saved (60_exceptions.md R390). -/
theorem restFlags_raise {s : State} (hs : s.valid.save = false) (f : FaultCode) (u : UnitId) : (s.raise f u).RestFlags :=
  ⟨rfl, fun hf => absurd rfl hf, hs⟩

/-- A rest has nothing left of an element. -/
theorem flagInv_of_rest {s : State} (h : s.RestFlags) : s.FlagInv :=
  (flagInv_iff s).2 ⟨flagsOk_of_rest h, rest?_of_not_busy h.1⟩

theorem restFlags_of_flagInv {s : State} (h : s.FlagInv) (hb : s.phase.isBusy = false) : s.RestFlags :=
  restFlags_of_flagsOk ((flagInv_iff s).1 h).1 hb

/-! ### The units -/

theorem inflateFlags_congr {s t : State} (h : s.InflateFlags) (hp : t.phase = s.phase) (he : t.regs.err = s.regs.err)
    (hv : t.valid = s.valid) (hi : t.iposKnown = s.iposKnown) : t.InflateFlags := by
  rw [State.InflateFlags, hp, he, hv, hi]
  exact h

/-- U1 keeps the flags of a running INFLATE until it ends. -/
theorem inflateFlags_kept : KeptByInflate State.InflateFlags State.RestFlags where
  raise f := fun ⟨_, _, hs, _⟩ => restFlags_raise hs f .inflate
  bit _ h := inflateFlags_congr h rfl rfl rfl rfl
  align h := inflateFlags_congr h rfl rfl rfl rfl
  below _ _ h := inflateFlags_congr h rfl rfl rfl rfl
  grown _ _ _ h := inflateFlags_congr h rfl rfl rfl rfl
  storedLen _ h := inflateFlags_congr h rfl rfl rfl rfl
  matchLen _ h := inflateFlags_congr h rfl rfl rfl rfl
  unit _ _ h := inflateFlags_congr h rfl rfl rfl rfl
  await _ ha := fun ⟨_, h⟩ => ⟨ha, h⟩
  finish := fun ⟨_, he, hs, _⟩ => ⟨rfl, fun _ => he, hs⟩

/-- A scanline keeps the flags of a running RECON until it ends. -/
theorem reconFlags_piece {s t : State} (h : s.ReconFlags) (he : s.piece .scanline = .next t) : t.ReconFlags ∨ t.RestFlags := by
  obtain ⟨hp, herr, hs, ht⟩ := h
  obtain ⟨-, ⟨hph, hv, hr⟩ | ⟨hph, hv, hr⟩ | ⟨hph, hv⟩⟩ := run_filter_frame (show s.run .filter _ = .next t from he)
  · exact .inl ⟨hph.trans hp, hr.trans herr, by rw [hv, hs], by rw [hv, ht]⟩
  · exact .inr ⟨by rw [hph]; rfl, fun _ => hr.trans herr, by rw [hv, hs]⟩
  · exact .inr ⟨by rw [hph]; rfl, fun hf => absurd hph hf, by rw [hv, hs]⟩

/-- The modes a running COMPOSE reads are the ones it was admitted with. -/
theorem blendMode_eq (s : State) : s.blendMode = s.regs.fCtl.toNat / 16 % 4 := rfl

theorem disposeMode_eq (s : State) : s.disposeMode = s.regs.fCtl.toNat % 4 := by
  simp [State.disposeMode, field]

/-- The blend mode keeps the flags of a running COMPOSE. -/
theorem composeFlags_blend {s t : State} (h : s.FlagsOk) (hp : s.phase = .busy .blend) (he : s.piece .blend = .next t) :
    t.ComposeFlags := by
  obtain ⟨herr, hsave, hblend, -, -, -, hcanvas⟩ := h
  obtain ⟨⟨-, hregs, -⟩, hph, hv⟩ | ⟨hm, -⟩ := run_blend_frame (show s.run .blend _ = .next t from he)
  case inr =>
    have := (blendMode_eq s).symm.trans_le (hblend hp).1
    omega
  have hd : t.disposeMode = s.disposeMode := by rw [State.disposeMode, hregs]; rfl
  refine ⟨.inr hph, ?_, hd ▸ (hblend hp).2, ?_, ?_⟩
  · rw [hregs]
    exact herr (by simp [hp])
  · rw [hv, hd]
    exact fun h => (hsave h).2
  · rw [hv]
    exact hcanvas (.inl hp)

/-- The dispose mode ends COMPOSE, and with it the save (44_compositor.md R300). -/
theorem restFlags_dispose {s t : State} (h : s.FlagsOk) (hp : s.phase = .busy .dispose) (he : s.piece .dispose = .next t) :
    t.RestFlags := by
  obtain ⟨herr, hsave, -, hdispose, -⟩ := h
  obtain ⟨⟨-, hregs, -⟩, hph, hv⟩ | ⟨hm, -⟩ := run_dispose_frame (show s.run .dispose _ = .next t from he)
  case inr =>
    have := (disposeMode_eq s).symm.trans_le (hdispose hp)
    omega
  refine ⟨by rw [hph]; rfl, fun _ => ?_, ?_⟩
  · rw [hregs]
    exact herr (by simp [hp])
  · rw [hv, ← disposeMode_eq]
    by_cases hd : s.disposeMode = 2
    · simp [hd]
    · simpa [hd] using fun h => hd (hsave h).2

/-- Every piece of an element keeps the flags. -/
theorem flagsOk_piece {s t : State} {a : Await} (hp : s.phase = .busy a) (h : s.FlagsOk) (he : s.piece a = .next t) : t.FlagsOk := by
  by_cases ha : a.isU1 = true
  · exact (inflateFlags_kept.piece ha (inflateFlags_of_flagsOk h hp ha) he).elim flagsOk_of_inflate flagsOk_of_rest
  · cases a with
    | scanline => exact (reconFlags_piece (reconFlags_of_flagsOk h hp) he).elim flagsOk_of_recon flagsOk_of_rest
    | blend => exact flagsOk_of_compose (composeFlags_blend h hp he)
    | dispose => exact flagsOk_of_rest (restFlags_dispose h hp he)
    | _ => exact absurd rfl ha

/-! ### The host -/

/-- `ERR` is read-only to the host (10_state.md R21). -/
theorem write_err (r : Regs) (n : Nat) (v : Word) : (r.write n v).err = r.err := by
  unfold Regs.write
  split <;> rfl

theorem isBusy_of_ready {s : State} (h : s.Ready) : s.phase.isBusy = false := by
  obtain h | h := h <;> rw [h] <;> rfl

theorem not_fault_of_ready {s : State} (h : s.Ready) : s.phase ≠ .fault := by
  obtain h | h := h <;> rw [h] <;> nofun

/-- What COMPOSE has checked of its modes (40_commands.md R150). -/
theorem modes_of_composeAdmission {s : State} (h : s.composeAdmission = none) : s.blendMode ≤ 1 ∧ s.disposeMode ≤ 2 := by
  have := (firstFailing_none _ _).1 h (s.blendMode ≤ 1 && s.disposeMode ≤ 2, .badMode) (by simp)
  simpa using this

/-- COMPOSE begins with its modes legal, its destinations closed, and a save only for restorePrevious (44_compositor.md R293). -/
theorem composeFlags_start {s : State} (h : s.RestFlags) (hr : s.Ready) (ha : s.composeAdmission = none) :
    s.startCompose.ComposeFlags := by
  obtain ⟨-, he, hs⟩ := h
  obtain ⟨hb, hd⟩ := modes_of_composeAdmission ha
  have he := he (not_fault_of_ready hr)
  obtain ⟨m, f, hc⟩ := startCompose_state s
  rw [hc]
  refine ⟨.inl ⟨rfl, hb⟩, he, hd, fun h => ?_, rfl, rfl⟩
  by_contra hm
  exact Bool.noConfusion (hs.symm.trans ((if_neg hm).symm.trans h))

/-- Every command that is admitted begins, or ends at once, with its flags right. -/
theorem flagInv_start {s t : State} (hr : s.Ready) (hs : s.Starts t) (h : s.FlagInv) : t.FlagInv := by
  have h := restFlags_of_flagInv h (isBusy_of_ready hr)
  obtain ⟨-, he, hsave⟩ := id h
  have he := he (not_fault_of_ready hr)
  cases hs with
  | nop => exact flagInv_of_rest ⟨rfl, fun _ => he, hsave⟩
  | inflate _ => exact (flagInv_iff _).2 ⟨flagsOk_of_inflate ⟨rfl, he, hsave, rfl, rfl⟩, rfl⟩
  | recon _ => exact (flagInv_iff _).2 ⟨flagsOk_of_recon ⟨rfl, he, hsave, rfl⟩, rfl⟩
  | canvasInit _ => exact flagInv_of_rest ⟨rfl, fun _ => he, hsave⟩
  | compose ha => exact (flagInv_iff _).2 ⟨flagsOk_of_compose (composeFlags_start h hr ha), rfl⟩
  | hashEnc _ => exact flagInv_of_rest ⟨rfl, fun _ => he, hsave⟩
  | hashDec _ => exact flagInv_of_rest ⟨rfl, fun _ => he, hsave⟩
  | hashAvg _ => exact flagInv_of_rest ⟨rfl, fun _ => he, hsave⟩
  | hashAspect _ => exact flagInv_of_rest ⟨rfl, fun _ => he, hsave⟩

/-- Every action of the host keeps the flags. -/
theorem flagInv_keptByHost : KeptByHost State.FlagInv where
  queue _ _ _ h := h
  write n v hb h := by
    obtain ⟨-, he, hs⟩ := restFlags_of_flagInv h hb
    exact flagInv_of_rest ⟨hb, fun hf => (write_err _ n v).trans (he hf), hs⟩
  store _ _ _ hb _ h := flagInv_of_rest (restFlags_of_flagInv h hb)
  reset _ := flagInv_of_rest ⟨rfl, fun _ => rfl, rfl⟩
  refuse f u hr h := by
    obtain ⟨-, -, hs⟩ := restFlags_of_flagInv h (isBusy_of_ready hr)
    exact flagInv_of_rest (restFlags_raise hs f u)
  clear _ _ := flagInv_of_rest ⟨rfl, fun _ => rfl, rfl⟩
  start := flagInv_start

/-- Every element of a unit keeps the flags, and ends where an element starts. -/
theorem flagInv_element {s t : State} {a : Await} (ha : s.phase = .busy a) (h : s.FlagInv) (he : s.element a 31 = .next t) :
    t.FlagInv := by
  obtain ⟨hf, hr⟩ := (flagInv_iff s).1 h
  exact (flagInv_iff t).2 ⟨element_preserves (fun _ _ _ => flagsOk_piece) 31 s t a ha hf he, unitStep_rest? ha hr he⟩

/-- Settles O54: the flags are kept by every action of the host and by every piece of an element, and an element has no more pieces
than a step makes. -/
theorem stepKeepsFlagInv : Obligations.StepKeepsFlagInv := by
  intro s t h he
  exact flagInv_keptByHost.step flagInv_element h he

end Sys2Proof.Machine
end

section
/-! The bounds of U1, an invariant of every step (10_state.md R36, R39; 41_inflate.md R175, R176). -/

namespace Sys2Proof.Machine

/-! ### Where nothing of U1 changes -/

/-- The invariant speaks of the parameters, the table RAMs, `RAW_LEN` and `RAW_CAP` alone while INFLATE does not run. -/
theorem inflateInv_congr {s t : State} (h : s.InflateInv) (hp : t.params = s.params) (hu : t.u1 = s.u1)
    (hl : t.regs.rawLen = s.regs.rawLen) (hc : t.regs.rawCap = s.regs.rawCap) (ht : t.phase.isU1 = false) : t.InflateInv := by
  obtain ⟨h1, h2, h3, h4, h5, h6, h7, -⟩ := h
  rw [State.InflateInv, hp, hu, hl, hc]
  exact ⟨h1, h2, h3, h4, h5, h6, h7, fun h => Bool.noConfusion (ht.symm.trans h)⟩

theorem isU1_of_not_busy {p : Phase} (h : p.isBusy = false) : p.isU1 = false := by
  cases p with
  | busy a => cases h
  | _ => rfl

/-- A fault changes nothing of U1 (60_exceptions.md R390). -/
theorem inflateInv_raise {s : State} (h : s.InflateInv) (f : FaultCode) (u : UnitId) : (s.raise f u).InflateInv :=
  inflateInv_congr h rfl rfl rfl rfl rfl

/-! ### Within INFLATE -/

/-- The bounds of a running INFLATE. -/
def State.InflateBounds (s : State) : Prop := s.InflateInv ∧ s.phase.isU1 = true

/-- A bit position inside a payload fits a register (10_state.md R24, R36). -/
theorem ipos_lt {s : State} {n : Nat} (h : s.InflateBounds) (hn : n ≤ 8 * s.regs.inLen.toNat) : n < 2 ^ 32 := by
  obtain ⟨⟨hp, -, -, -, -, -, -, hi⟩, hu⟩ := h
  obtain ⟨-, hmax, -⟩ := hp
  have := (hi hu).1
  omega

theorem ipos_le {s : State} (h : s.InflateBounds) : s.regs.ipos.toNat ≤ 8 * s.regs.inLen.toNat := by
  obtain ⟨⟨-, -, -, -, -, -, -, hi⟩, hu⟩ := h
  exact (hi hu).2

/-- A stream position inside the payload is a legal `IPOS`. -/
theorem inflateBounds_ipos {s : State} {n : Nat} (h : s.InflateBounds) (hn : n ≤ 8 * s.regs.inLen.toNat) :
    State.InflateBounds { s with regs := { s.regs with ipos := reg n } } := by
  have hr : (reg n).toNat = n := reg_toNat (ipos_lt h hn)
  obtain ⟨⟨h1, h2, h3, h4, h5, h6, h7, hi⟩, hu⟩ := h
  exact ⟨⟨h1, h2, h3, h4, h5, h6, h7, fun _ => ⟨(hi hu).1, hr.trans_le hn⟩⟩, hu⟩

/-- A byte put out below the capacity (41_inflate.md R175). -/
theorem inflateBounds_append {s : State} (b : Byte) (hc : s.regs.rawLen ≠ s.regs.rawCap) (h : s.InflateBounds) :
    (s.appendRaw b).InflateBounds := by
  obtain ⟨⟨h1, h2, h3, h4, h5, h6, h7, hi⟩, hu⟩ := h
  have hne : s.regs.rawLen.toNat ≠ s.regs.rawCap.toNat := fun he => hc (BitVec.eq_of_toNat_eq he)
  have hr : (reg (s.regs.rawLen.toNat + 1)).toNat = s.regs.rawLen.toNat + 1 := reg_toNat (by omega)
  refine ⟨⟨h1, h2, h3, h4, h5, ?_, h7, hi⟩, hu⟩
  show (reg (s.regs.rawLen.toNat + 1)).toNat ≤ s.regs.rawCap.toNat
  omega

/-- `RAW_CAP` grown: still at most `RAW_MAX`, and above what it was (41_inflate.md R176). -/
theorem inflateBounds_grown {s : State} (hm : s.regs.rawCap.toNat < s.params.rawMax) (h : s.InflateBounds) :
    s.grown.InflateBounds ∧ s.regs.rawCap.toNat < s.grown.regs.rawCap.toNat := by
  obtain ⟨⟨h1, h2, h3, h4, h5, h6, h7, hi⟩, hu⟩ := h
  obtain ⟨-, -, -, hmax, -⟩ := id h1
  have hr : s.grown.regs.rawCap.toNat = min (2 * s.regs.rawCap.toNat) s.params.rawMax := reg_toNat (by omega)
  refine ⟨⟨⟨h1, h2, h3, h4, ?_, ?_, ?_, hi⟩, hu⟩, by omega⟩
  · omega
  · show s.regs.rawLen.toNat ≤ s.grown.regs.rawCap.toNat
    omega
  · show s.grown.regs.rawCap.toNat ≤ s.params.rawMax
    omega

/-- A table RAM that has the size it had, or its own, has its own. -/
theorem inflateBounds_unit {s : State} (u : InflateUnit) (hs : u.SizedLike s.u1) (h : s.InflateBounds) :
    State.InflateBounds { s with u1 := u } := by
  obtain ⟨⟨h1, h2, h3, h4, h5⟩, hu⟩ := h
  obtain ⟨hc, hl, hd⟩ := hs
  rw [h2] at hc
  rw [h3] at hl
  rw [h4] at hd
  exact ⟨⟨h1, hc.elim id id, hl.elim id id, hd.elim id id, h5⟩, hu⟩

/-- U1 keeps its bounds, and leaves them when it ends. -/
theorem inflateBounds_kept : KeptByInflate State.InflateBounds State.InflateInv where
  raise f h := inflateInv_raise h.1 f .inflate
  bit hb h := inflateBounds_ipos h hb
  align h := by
    have := ipos_le h
    exact inflateBounds_ipos h (by omega)
  below b hc h := inflateBounds_append b hc h
  grown {s} b hc hm h := by
    obtain ⟨hg, hlt⟩ := inflateBounds_grown hm h
    refine inflateBounds_append b (fun he => ?_) hg
    have : s.regs.rawLen.toNat = s.grown.regs.rawCap.toNat := congrArg BitVec.toNat he
    rw [hc] at this
    omega
  storedLen _ h := inflateBounds_unit _ (sizedLike_of_eq rfl rfl rfl) h
  matchLen _ h := inflateBounds_unit _ (sizedLike_of_eq rfl rfl rfl) h
  unit := inflateBounds_unit
  await _ ha h := by
    obtain ⟨⟨h1, h2, h3, h4, h5, h6, h7, hi⟩, hu⟩ := h
    exact ⟨⟨h1, h2, h3, h4, h5, h6, h7, fun _ => hi hu⟩, ha⟩
  finish h := inflateInv_congr h.1 rfl rfl rfl rfl rfl

/-! ### The other units -/

/-- A scanline changes nothing of U1. -/
theorem inflateInv_scanline {s t : State} (hp : s.phase = .busy .scanline) (h : s.InflateInv) (he : s.piece .scanline = .next t) :
    t.InflateInv := by
  have hn := piece_successor hp he
  obtain ⟨⟨hpar, hregs, -, -, hu, -⟩, -⟩ := run_filter_frame (show s.run .filter _ = .next t from he)
  refine inflateInv_congr h hpar hu (by rw [hregs]) (by rw [hregs]) ?_
  simp only [Await.successors, List.mem_cons, List.not_mem_nil, or_false] at hn
  obtain hn | hn | hn := hn <;> rw [hn] <;> rfl

/-- A blend mode changes nothing of U1. -/
theorem inflateInv_blend {s t : State} (h : s.InflateInv) (he : s.piece .blend = .next t) : t.InflateInv := by
  obtain ⟨⟨hpar, hregs, -, -, hu, -⟩, hp, -⟩ | ⟨-, rfl⟩ := run_blend_frame (show s.run .blend _ = .next t from he)
  · exact inflateInv_congr h hpar hu (by rw [hregs]) (by rw [hregs]) (by rw [hp]; rfl)
  · exact inflateInv_raise h _ _

/-- A dispose mode changes nothing of U1. -/
theorem inflateInv_dispose {s t : State} (h : s.InflateInv) (he : s.piece .dispose = .next t) : t.InflateInv := by
  obtain ⟨⟨hpar, hregs, -, -, hu, -⟩, hp, -⟩ | ⟨-, rfl⟩ := run_dispose_frame (show s.run .dispose _ = .next t from he)
  · exact inflateInv_congr h hpar hu (by rw [hregs]) (by rw [hregs]) (by rw [hp]; rfl)
  · exact inflateInv_raise h _ _

/-- Every piece of an element keeps the bounds of U1. -/
theorem inflateInv_piece {s t : State} {a : Await} (hp : s.phase = .busy a) (h : s.InflateInv) (he : s.piece a = .next t) :
    t.InflateInv := by
  by_cases ha : a.isU1 = true
  · exact (inflateBounds_kept.piece ha ⟨h, by rw [hp]; exact ha⟩ he).elim (·.1) id
  · cases a with
    | scanline => exact inflateInv_scanline hp h he
    | blend => exact inflateInv_blend h he
    | dispose => exact inflateInv_dispose h he
    | _ => exact absurd rfl ha

/-! ### The host -/

/-- `RAW_LEN` and `RAW_CAP` are read-only to the host (10_state.md R21). -/
theorem write_rawLen (r : Regs) (n : Nat) (v : Word) : (r.write n v).rawLen = r.rawLen := by
  unfold Regs.write
  split <;> rfl

theorem write_rawCap (r : Regs) (n : Nat) (v : Word) : (r.write n v).rawCap = r.rawCap := by
  unfold Regs.write
  split <;> rfl

/-- What INFLATE has checked of its payload (40_commands.md R147). -/
theorem payload_of_inflateAdmission {s : State} (h : s.inflateAdmission = none) :
    s.regs.inOff.toNat ≤ s.regs.inLen.toNat ∧ s.regs.inLen.toNat ≤ s.params.inMax := by
  have := (firstFailing_none _ _).1 h (s.payloadInRange, .paramRange) (by simp)
  simpa [State.payloadInRange] using this

/-- The initial capacity fits a register (00_scope.md R5). -/
theorem rawInitCap_toNat {p : Params} (h : p.Ok) : (reg p.rawInitCap).toNat = p.rawInitCap := by
  obtain ⟨-, -, -, hmax, -, hcap, -, -⟩ := h
  exact reg_toNat (by omega)

/-- INFLATE begins inside its payload, with its initial capacity (40_commands.md R147). -/
theorem inflateInv_startInflate {s : State} (h : s.InflateInv) (ha : s.inflateAdmission = none) :
    ((s.openDest .raw).startInflate.await .header).InflateInv := by
  obtain ⟨ho, hl⟩ := payload_of_inflateAdmission ha
  obtain ⟨hp, h2, h3, h4, -⟩ := h
  have hc := rawInitCap_toNat hp
  obtain ⟨-, hin, -, -, hcap, hmax, -, -⟩ := id hp
  have hi : (reg (8 * s.regs.inOff.toNat)).toNat = 8 * s.regs.inOff.toNat := reg_toNat (by omega)
  refine ⟨hp, h2, h3, h4, hc.symm ▸ hcap, Nat.zero_le _, hc.trans_le hmax, fun _ => ⟨hl, hi.trans_le ?_⟩⟩
  show 8 * s.regs.inOff.toNat ≤ 8 * s.regs.inLen.toNat
  omega

/-- Every command that is admitted begins with the bounds of U1. -/
theorem inflateInv_start {s t : State} (_ : s.Ready) (hs : s.Starts t) (h : s.InflateInv) : t.InflateInv := by
  cases hs with
  | inflate ha => exact inflateInv_startInflate h ha
  | compose _ =>
    obtain ⟨m, f, hc⟩ := startCompose_state s
    rw [hc]
    exact inflateInv_congr h rfl rfl rfl rfl rfl
  | nop => exact inflateInv_congr h rfl rfl rfl rfl rfl
  | recon _ => exact inflateInv_congr h rfl rfl rfl rfl rfl
  | canvasInit _ => exact inflateInv_congr h rfl rfl rfl rfl rfl
  | hashEnc _ => exact inflateInv_congr h rfl rfl rfl rfl rfl
  | hashDec _ => exact inflateInv_congr h rfl rfl rfl rfl rfl
  | hashAvg _ => exact inflateInv_congr h rfl rfl rfl rfl rfl
  | hashAspect _ => exact inflateInv_congr h rfl rfl rfl rfl rfl

/-- The reset state of every implementation has U1 inside its bounds (10_state.md R46). -/
theorem inflateInv_resetWith {p : Params} (h : p.Ok) : (State.resetWith p).InflateInv := by
  have hc := rawInitCap_toNat h
  obtain ⟨-, -, -, -, hcap, hmax, -, -⟩ := id h
  exact ⟨h, List.length_replicate, List.length_replicate, List.length_replicate, hc.symm ▸ hcap, Nat.zero_le _, hc.trans_le hmax,
    fun h => by cases h⟩

/-- Every action of the host keeps the bounds of U1. -/
theorem inflateInv_keptByHost : KeptByHost State.InflateInv where
  queue _ _ _ h := h
  write n v hb h := inflateInv_congr h rfl rfl (write_rawLen _ n v) (write_rawCap _ n v) (isU1_of_not_busy hb)
  store _ _ _ hb _ h := inflateInv_congr h rfl rfl rfl rfl (isU1_of_not_busy hb)
  reset h := inflateInv_resetWith h.1
  refuse f u _ h := inflateInv_raise h f u
  clear _ h := inflateInv_congr h rfl rfl rfl rfl rfl
  start := inflateInv_start

/-- Settles O55: the bounds of U1 are kept by every action of the host and by every piece of an element. -/
theorem stepKeepsInflateInv : Obligations.StepKeepsInflateInv := by
  intro s t h he
  exact inflateInv_keptByHost.step
    (fun ha h he => element_preserves (fun _ _ _ => inflateInv_piece) 31 _ _ _ ha h he) h he

end Sys2Proof.Machine
end

section
/-! The sequencer's part of the machine: `CMD` by phase, the step as the execution of an instruction, and reset
(10_state.md R22, R40, R46; 40_commands.md R140). -/

namespace Sys2Proof.Machine

/-! ### `CMD` by phase -/

/-- Settles O7, by the three places a command word is ignored in, taken in part, or started from. -/
theorem commandWriteByPhase : Obligations.CommandWriteByPhase := by
  refine ⟨fun s v a h => ?_, fun s v h => ?_, fun s v _ => ?_, fun s h => ?_⟩
  · rw [hostWriteReg_cmd, execCommand_busy h]
  · rw [hostWriteReg_cmd, execCommand_fault h]
  · rw [hostWriteReg_cmd, decodeCmd_mod]
  · have hs : s.regSpecified 0 = true := by simp [State.regSpecified, regGuard]
    simp [State.hostReadReg, h, hs, State.regAt]

/-! ### The step -/

/-- The execution of a value that decodes. -/
theorem run_of_decode {f : Format} {w : Nat} {i : Instr} (h : decode f w = .ok i) (s : State) : s.run f w = exec i s := by
  rw [State.run, h]

theorem piece_of_fetch {s s' : State} {a : Await} {f : Format} {w : Nat} {i : Instr} (hf : s.fetch a = .ok (f, w) s')
    (hd : decode f w = .ok i) : s.piece a = exec i s' := by
  rw [State.piece, hf]
  exact run_of_decode hd s'

theorem piece_of_raised {s s' : State} {a : Await} (hf : s.fetch a = .raised s') : s.piece a = .next s' := by
  rw [State.piece, hf]

/-- An element ends with a piece that leaves nothing of it. -/
theorem element_ends {s t : State} {a : Await} (hp : s.piece a = .next t) (hr : t.rest? = none) :
    ∀ n, s.element a n = .next t
  | 0 => hp
  | n + 1 => by rw [State.element, hp]; simp only [hr]

/-- An element goes on with what a piece leaves of it. -/
theorem element_goes_on {s t : State} {a b : Await} (hp : s.piece a = .next t) (hr : t.rest? = some b) (n : Nat) :
    s.element a (n + 1) = t.element b n := by
  rw [State.element, hp]
  simp only [hr]

theorem rest?_of_raised {s s' : State} {a : Await} (hf : s.fetch a = .raised s') : s'.rest? = none :=
  rest?_of_not_busy (by rw [fetch_raised hf]; rfl)

/-- A due host action that gives the machine an instruction runs it. -/
theorem step_runs_due {s : State} {item : HostItem} {rest : List HostItem} (h : s.script = item :: rest)
    (hd : item.early = true ∨ s.phase.isBusy = false) :
    (∀ v i, item.op = .writeReg 0 v → decode .cmd v.toNat = .ok i → step s = exec i { s with script := rest }) ∧
    (∀ a, item.op = .frame a → step s = exec (.frame a) { s with script := rest }) ∧
    (∀ a, item.op = .decodeStill a → step s = exec (.decodeStill a) { s with script := rest }) ∧
    (∀ a, item.op = .decodeAnim a → step s = exec (.decodeAnim a) { s with script := rest }) := by
  rw [step_of_due h hd]
  refine ⟨fun v i ho hi => ?_, fun a ho => ?_, fun a ho => ?_, fun a ho => ?_⟩ <;> rw [ho]
  · exact run_of_decode hi _
  · rfl
  · rfl
  · rfl

/-- With nothing to do the machine stays. -/
theorem step_idle {s : State} (h : s.script = []) (hb : s.phase.isBusy = false) : step s = .next s := by
  unfold step State.advance
  rw [h]
  unfold State.proceed
  cases hp : s.phase with
  | busy a => rw [hp] at hb; cases hb
  | _ => rfl

/-- Settles O5, clause by clause from what a step, an element and a piece are. -/
theorem stepRunsInstruction : Obligations.StepRunsInstruction := by
  refine ⟨?_, ?_, fun _ _ => step_of_undisturbed, fun _ _ _ _ _ _ => piece_of_fetch, ?_, ?_, ?_, rest?_iff,
    fun _ _ _ => step_runs_due, fun _ => step_idle⟩
  · intro s s' t a f w i hu ha hf hd he hr
    rw [step_of_undisturbed hu ha, element_ends ((piece_of_fetch hf hd).trans he) hr, he]
  · intro s s' a hu ha hf
    rw [step_of_undisturbed hu ha, element_ends (piece_of_raised hf) (rest?_of_raised hf)]
  · exact fun s s' a hf => ⟨piece_of_raised hf, fetch_raised hf, rest?_of_raised hf⟩
  · exact fun s t a b n hp hr => element_goes_on hp hr n
  · exact fun s t a n hp hr => element_ends hp hr n

/-! ### Reset -/

/-- After reset every register number but that of `RAW_CAP` reads 0. -/
theorem regAt_resetWith (p : Params) (n : Nat) :
    (State.resetWith p).regAt n = if n = 0x07 then BitVec.ofNat 32 p.rawInitCap else 0 := by
  unfold State.regAt
  split
  case h_35 => exact (if_neg ‹n = 7 → False›).symm
  all_goals rfl

theorem buf_empty (b : Buf) : Buffers.empty.get b = [] := by cases b <;> rfl

/-- Settles O6, register by register and buffer by buffer. -/
theorem resetState : Obligations.ResetState := by
  refine ⟨fun p hp => ⟨regAt_resetWith p, rawInitCap_toNat hp, rfl, rfl, buf_empty⟩, fun s item rest h hd ho => ?_⟩
  refine ⟨State.doReset { s with script := rest }, ?_, rfl, rfl, rfl, rfl, buf_empty, rfl⟩
  rw [step_of_due h hd, ho]
  rfl

/-- Settles O58: nothing runs, no flag is 1 and nothing is written. -/
theorem resetMeetsInvariants : Obligations.ResetMeetsInvariants := by
  intro p hp
  refine ⟨reset_memoryInv p, flagInv_of_rest ⟨rfl, fun _ => rfl, rfl⟩, inflateInv_resetWith hp, ?_, ?_⟩
  · exact ⟨hp, nofun, nofun, nofun, fun h => h.elim nofun nofun⟩
  · exact ⟨nofun, nofun, nofun, nofun, nofun, nofun, nofun, nofun⟩

end Sys2Proof.Machine
end

section
/-! The registers and buffers as the host sees them (10_state.md R21, R23, R35, R38; 20_memory.md R80, R82). -/

namespace Sys2Proof.Machine

/-! ### The bits of `STATUS` -/

/-- A flag set above a number is its bit; the bits below are the number's. -/
theorem testBit_add_flag {x i : Nat} (b : Bool) (hx : x < 2 ^ i) (k : Nat) :
    (x + 2 ^ i * b.toNat).testBit k = if k = i then b else x.testBit k := by
  rw [Nat.add_comm, Nat.testBit_two_pow_mul_add b.toNat hx]
  by_cases h : k < i
  · rw [if_pos h, if_neg (by omega)]
  · rw [if_neg h]
    by_cases he : k = i
    · subst he
      cases b <;> simp
    · have hk : k - i ≠ 0 := by omega
      have hs : x.testBit k = false := Nat.testBit_lt_two_pow (hx.trans_le (Nat.pow_le_pow_right (by omega) (by omega)))
      rw [if_neg he, hs]
      obtain ⟨j, hj⟩ := Nat.exists_eq_succ_of_ne_zero hk
      cases b <;> simp [hj, Nat.testBit_succ]

theorem phase_code_lt (p : Phase) : p.code < 2 ^ 2 := by cases p <;> simp [Phase.code]

/-- `STATUS` bit by bit above the phase (10_state.md R23). -/
theorem statusWord_getLsbD (s : State) {k : Nat} (hk : 2 ≤ k) : s.statusWord.getLsbD k =
    if k = 4 then s.valid.raw else if k = 5 then s.valid.tile else if k = 6 then s.valid.canvas
    else if k = 7 then s.valid.save else if k = 8 then s.valid.out else if k = 9 then s.valid.res else false := by
  have hp := phase_code_lt s.phase
  have h0 := Bool.toNat_le s.valid.raw
  have h1 := Bool.toNat_le s.valid.tile
  have h2 := Bool.toNat_le s.valid.canvas
  have h3 := Bool.toNat_le s.valid.save
  have h4 := Bool.toNat_le s.valid.out
  have h5 := Bool.toNat_le s.valid.res
  have hc : s.phase.code.testBit k = false := Nat.testBit_lt_two_pow (hp.trans_le (Nat.pow_le_pow_right (by omega) hk))
  rw [State.statusWord, BitVec.getLsbD_ofNat, testBit_add_flag _ (by omega), testBit_add_flag _ (by omega),
    testBit_add_flag _ (by omega), testBit_add_flag _ (by omega), testBit_add_flag _ (by omega), testBit_add_flag _ (by omega), hc]
  by_cases h32 : k < 32
  · rw [decide_eq_true h32, Bool.true_and]
    interval_cases k <;> rfl
  · rw [decide_eq_false h32, Bool.false_and, if_neg (by omega), if_neg (by omega), if_neg (by omega), if_neg (by omega),
      if_neg (by omega), if_neg (by omega)]

/-- Field `PHASE` of `STATUS` (10_state.md R23). -/
theorem statusWord_phase (s : State) : s.statusWord.toNat % 4 = s.phase.code := by
  have hp := phase_code_lt s.phase
  rw [State.statusWord, BitVec.toNat_ofNat]
  omega

/-! ### Register writes -/

/-- The numbers of the `RW` registers (10_state.md R21). -/
def rwNumbers : List Nat :=
  [0x03, 0x04, 0x08, 0x09, 0x0A, 0x0B, 0x0C, 0x0D, 0x0E, 0x0F, 0x10, 0x11, 0x12, 0x13, 0x14, 0x15, 0x16]

/-- A register number reads 0 beyond the last register (10_state.md R21). -/
theorem regAt_reserved (s : State) {n : Nat} (h : 0x23 ≤ n) : s.regAt n = 0 := by
  unfold State.regAt
  split
  case h_35 => rfl
  all_goals omega

/-- A write to a number that names no `RW` register is ignored (10_state.md R21). -/
theorem write_ignored (r : Regs) {n : Nat} (v : Word) (h : n ∉ rwNumbers) : r.write n v = r := by
  unfold Regs.write
  split
  case h_18 => rfl
  all_goals exact absurd (by decide) h

/-- What is written to an `RW` register, and nothing else, is read (10_state.md R21). -/
theorem regAt_write (s : State) {n : Nat} (v : Word) (h : n ∈ rwNumbers) (m : Nat) :
    State.regAt { s with regs := s.regs.write n v } m = if m = n then v else s.regAt m := by
  by_cases hm : m < 0x23
  · simp only [rwNumbers, List.mem_cons, List.not_mem_nil, or_false] at h
    obtain rfl | rfl | rfl | rfl | rfl | rfl | rfl | rfl | rfl | rfl | rfl | rfl | rfl | rfl | rfl | rfl | rfl := h <;>
      interval_cases m <;> rfl
  · have hn : n < 0x23 := by
      simp only [rwNumbers, List.mem_cons, List.not_mem_nil, or_false] at h
      omega
    rw [if_neg (by omega), regAt_reserved _ (by omega), regAt_reserved _ (by omega)]

theorem doWriteReg_of_not_busy {s : State} (h : s.phase.isBusy = false) (n : Nat) (v : Word) :
    s.doWriteReg n v = { s with regs := s.regs.write n v } := by
  simp [State.doWriteReg, h]

theorem doWriteReg_of_busy {s : State} (h : s.phase.isBusy = true) (n : Nat) (v : Word) : s.doWriteReg n v = s := by
  simp [State.doWriteReg, h]

/-- A write to an `RW` register outside BUSY stores the value whole and changes nothing else. -/
theorem doWriteReg_stores {s : State} {n : Nat} (v : Word) (hb : s.phase.isBusy = false) (h : n ∈ rwNumbers) :
    (s.doWriteReg n v).regAt n = v ∧ (∀ m, m ≠ n → (s.doWriteReg n v).regAt m = s.regAt m) ∧
    s.doWriteReg n v = { s with regs := (s.doWriteReg n v).regs } := by
  rw [doWriteReg_of_not_busy hb]
  refine ⟨?_, fun m hm => ?_, rfl⟩
  · rw [regAt_write s v h, if_pos rfl]
  · rw [regAt_write s v h, if_neg hm]

theorem doWriteReg_ignored (s : State) {n : Nat} (v : Word) (h : n ∉ rwNumbers) : s.doWriteReg n v = s := by
  rw [State.doWriteReg, write_ignored _ v h, ite_self]

/-! ### Buffer writes -/

/-- A buffer write outside BUSY and inside the capacity stores its bytes and nothing else (10_state.md R38). -/
theorem doWriteBuf_stores {s : State} {b : HostWBuf} {i : Nat} {bytes : List Byte} (hb : s.phase.isBusy = false)
    (h : i + bytes.length ≤ s.params.capacity b.buf) :
    ∃ t, s.doWriteBuf b i bytes = .next t ∧ t = { s with buf := t.buf } ∧
      (∀ c, c ≠ b.buf → t.buf.get c = s.buf.get c) ∧
      (∀ k, k < bytes.length → t.byteAt b.buf (i + k) = bytes.getD k 0) ∧
      (∀ k, k < i ∨ i + bytes.length ≤ k → t.byteAt b.buf k = s.byteAt b.buf k) := by
  refine ⟨s.writeBytes b.buf i bytes, by simp [State.doWriteBuf, hb, h], rfl, fun c hc => ?_, fun k hk => ?_, fun k hk => ?_⟩
  · exact buf_put_get_other _ _ _ _ hc
  · rw [byteAt_writeBytes_in _ _ _ _ _ hk, List.getD_eq_getElem _ _ hk]
  · exact byteAt_writeBytes_out _ _ _ _ _ hk

/-- A buffer write outside BUSY and beyond the capacity names no byte (log entry 15). -/
theorem doWriteBuf_beyond {s : State} {b : HostWBuf} {i : Nat} {bytes : List Byte} (hb : s.phase.isBusy = false)
    (h : s.params.capacity b.buf < i + bytes.length) : s.doWriteBuf b i bytes = .fault .noSuchByte := by
  simp [State.doWriteBuf, hb, Nat.not_le.2 h]

/-! ### Register reads -/

theorem hostReadReg_status (s : State) : s.hostReadReg 0x01 = (s.statusWord, s) := rfl

/-- While BUSY every register but `STATUS` reads as a free value (20_memory.md R82). -/
theorem hostReadReg_of_busy {s : State} {n : Nat} (hb : s.phase.isBusy = true) (h : n ≠ 0x01) :
    s.hostReadReg n = (Config.freeWord s.freeCtr, { s with freeCtr := s.freeCtr + 1 }) := by
  simp [State.hostReadReg, h, hb, State.freeWord]

/-- Outside BUSY a register reads as it stands where it has a specified value, and as a free value elsewhere. -/
theorem hostReadReg_of_not_busy {s : State} (n : Nat) (hb : s.phase.isBusy = false) : s.hostReadReg n =
    if s.regSpecified n then (s.regAt n, s) else (Config.freeWord s.freeCtr, { s with freeCtr := s.freeCtr + 1 }) := by
  by_cases h1 : n = 0x01
  · subst h1
    simp [hostReadReg_status, State.regSpecified, regGuard, State.regAt]
  · cases hs : s.regSpecified n <;> simp [State.hostReadReg, h1, hb, hs, State.freeWord]

/-- The numbers of the registers that may be without a specified value (10_state.md R35, R36). -/
def resultNumbers : List Nat := [0x05, 0x06, 0x07, 0x17, 0x18, 0x19, 0x1A, 0x1B, 0x1C, 0x1D, 0x1E, 0x1F, 0x20, 0x21, 0x22]

theorem regGuard_of_not_result {n : Nat} (h : n ∉ resultNumbers) : regGuard n = none := by
  unfold regGuard
  split
  case h_15 => rfl
  all_goals exact absurd (by decide) h

theorem regSpecified_of_not_result (s : State) {n : Nat} (h : n ∉ resultNumbers) : s.regSpecified n = true := by
  have hn : n ≠ 0x05 := fun he => h (by rw [he]; decide)
  simp [State.regSpecified, hn, regGuard_of_not_result h]

/-- Which flag decides whether a register has a specified value (10_state.md R35, R36). -/
theorem regSpecified_cases {s : State} {n : Nat} {specified : Bool}
    (h : (n = 0x05 ∧ specified = s.iposKnown) ∨ (n ∈ [0x06, 0x07] ∧ specified = (s.pristine || s.valid.raw)) ∨
      (n ∈ [0x17, 0x18, 0x19] ∧ specified = (s.pristine || s.valid.out)) ∨
      (n ∈ [0x1A, 0x1B, 0x1C, 0x1D] ∧ specified = (s.pristine || s.valid.res)) ∨
      (n ∈ [0x1F, 0x20] ∧ specified = (s.pristine || s.valid.tile)) ∨
      (n ∈ [0x1E, 0x21, 0x22] ∧ specified = (s.pristine || s.valid.canvas))) : s.regSpecified n = specified := by
  simp only [List.mem_cons, List.not_mem_nil, or_false] at h
  obtain ⟨rfl, rfl⟩ | ⟨hn, rfl⟩ | ⟨hn, rfl⟩ | ⟨hn, rfl⟩ | ⟨hn, rfl⟩ | ⟨hn, rfl⟩ := h
  · rfl
  · obtain rfl | rfl := hn <;> rfl
  · obtain rfl | rfl | rfl := hn <;> rfl
  · obtain rfl | rfl | rfl | rfl := hn <;> rfl
  · obtain rfl | rfl := hn <;> rfl
  · obtain rfl | rfl | rfl := hn <;> rfl

/-! ### Buffer reads -/

theorem hostReadBytes_length (s : State) (b : HostRBuf) (i n : Nat) : (s.hostReadBytes b i n).1.length = n := by
  unfold State.hostReadBytes
  split <;> simp

/-- While BUSY each byte is of a free value of its own (20_memory.md R82). -/
theorem hostReadBytes_of_busy {s : State} (hb : s.phase.isBusy = true) (b : HostRBuf) (i n : Nat) : s.hostReadBytes b i n =
    ((List.range n).map (fun k => (Config.freeWord (s.freeCtr + k)).setWidth 8), { s with freeCtr := s.freeCtr + n }) := by
  rw [State.hostReadBytes, if_pos hb]

/-- Outside BUSY a read changes nothing (20_memory.md R80). -/
theorem hostReadBytes_of_not_busy {s : State} (hb : s.phase.isBusy = false) (b : HostRBuf) (i n : Nat) :
    s.hostReadBytes b i n = ((List.range n).map (fun k => s.hostByte b (i + k)), s) := by
  rw [State.hostReadBytes, if_neg (by simp [hb])]

theorem getD_map_range {α : Type} (f : Nat → α) (d : α) {n k : Nat} (h : k < n) : ((List.range n).map f).getD k d = f k := by
  rw [List.getD_eq_getElem _ _ (by simpa using h)]
  simp

/-- Where a byte has a specified value for the host (10_state.md R38). -/
theorem byteSpecified_iff (s : State) (b : HostRBuf) (i : Nat) : s.byteSpecified b i = true ↔
    (b = .inp ∨ b = .pal ∨ b = .trns ∨ (b = .raw ∧ s.valid.raw = true ∧ i < s.regs.rawLen.toNat) ∨
      (b = .tile ∧ s.valid.tile = true ∧ i < 4 * s.regs.tileW.toNat * s.regs.tileH.toNat) ∨
      (b = .canvas ∧ s.valid.canvas = true ∧ i < 4 * s.regs.canvasW.toNat * s.regs.canvasH.toNat) ∨
      (b = .out ∧ s.valid.out = true ∧ i < s.regs.outLen.toNat)) := by
  cases b <;> simp [State.byteSpecified]

/-- What a byte reads as outside BUSY (10_state.md R38; 20_memory.md R80, log entry 28). -/
theorem hostReadBytes_getD {s : State} (hb : s.phase.isBusy = false) (b : HostRBuf) {i n k : Nat} (hk : k < n) :
    (s.hostReadBytes b i n).1.getD k 0 =
      if s.byteSpecified b (i + k) = true then s.byteAt b.buf (i + k)
      else Config.unspecifiedByte s.epoch (s.fills.get b) b.buf (i + k) := by
  rw [hostReadBytes_of_not_busy hb]
  exact getD_map_range _ _ hk

/-! ### A due access of the host -/

/-- A buffer read that names bytes, or that BUSY answers with free values, is logged. -/
theorem doReadBuf_reads {s : State} {b : HostRBuf} {i n : Nat} (h : s.phase.isBusy = true ∨ i + n ≤ s.params.capacity b.buf) :
    s.doReadBuf b i n = .next { (s.hostReadBytes b i n).2 with
      hostLog := s.hostLog ++ [.bytes b i (s.hostReadBytes b i n).1] } := by
  obtain ⟨c, hc⟩ := hostReadBytes_state s b i n
  have hcond : (s.phase.isBusy || decide (i + n ≤ s.params.capacity b.buf)) = true := by simpa using h
  rw [State.doReadBuf, if_pos hcond, hc]
  rfl

theorem doReadBuf_beyond {s : State} {b : HostRBuf} {i n : Nat} (hb : s.phase.isBusy = false)
    (h : s.params.capacity b.buf < i + n) : s.doReadBuf b i n = .fault .noSuchByte := by
  simp [State.doReadBuf, hb, Nat.not_le.2 h]

theorem doReadReg_eq (s : State) (n : Nat) : s.doReadReg n = { (s.hostReadReg n).2 with
    hostLog := s.hostLog ++ [.reg n (s.hostReadReg n).1] } := by
  obtain ⟨c, hc⟩ := hostReadReg_state s n
  rw [State.doReadReg, hc]
  rfl

/-- The read of `OUT[0 .. OUT_LEN)`: the length read, then that many bytes (40_commands.md R155). -/
theorem doReadOut_cases {q r : State} {n : Nat} (hn : n = (q.hostReadReg 0x17).1.toNat) (hr : r = (q.hostReadReg 0x17).2) :
    (q.phase.isBusy = true ∨ n ≤ q.params.pixMax → q.doReadOut = .next { (r.hostReadBytes .out 0 n).2 with
      hostLog := q.hostLog ++ [.bytes .out 0 (r.hostReadBytes .out 0 n).1] }) ∧
    (q.phase.isBusy = false → q.params.pixMax < n → q.doReadOut = .fault .noSuchByte) := by
  have he : q.doReadOut = r.doReadBuf .out 0 n := by rw [State.doReadOut, hn, hr]
  obtain ⟨c, hc⟩ := hostReadReg_state q 0x17
  rw [he]
  obtain rfl : r = { q with freeCtr := c } := hr.trans hc
  refine ⟨fun h => doReadBuf_reads ?_, fun hb h => doReadBuf_beyond hb ?_⟩
  · exact h.imp_right (Nat.zero_add n).le.trans
  · exact h.trans_eq (Nat.zero_add n).symm

/-- A step with an access of the host due makes the access. -/
theorem step_accesses {s : State} {item : HostItem} {rest : List HostItem} (h : s.script = item :: rest)
    (hd : item.early = true ∨ s.phase.isBusy = false) {q : State} (hq : q = { s with script := rest }) :
    (∀ n v, item.op = .writeReg n v → n ≠ 0 → step s = .next (q.doWriteReg n v)) ∧
    (∀ b i bytes, item.op = .writeBuf b i bytes → step s = q.doWriteBuf b i bytes) ∧
    (∀ n, item.op = .readReg n → step s = .next { (q.hostReadReg n).2 with
      hostLog := s.hostLog ++ [.reg n (q.hostReadReg n).1] }) ∧
    (∀ b i n, item.op = .readBuf b i n →
      (s.phase.isBusy = true ∨ i + n ≤ s.params.capacity b.buf → step s = .next { (q.hostReadBytes b i n).2 with
        hostLog := s.hostLog ++ [.bytes b i (q.hostReadBytes b i n).1] }) ∧
      (s.phase.isBusy = false → s.params.capacity b.buf < i + n → step s = .fault .noSuchByte)) ∧
    (item.op = .readOut → ∀ (n : Nat) (r : State), n = (q.hostReadReg 0x17).1.toNat → r = (q.hostReadReg 0x17).2 →
      (s.phase.isBusy = true ∨ n ≤ s.params.pixMax → step s = .next { (r.hostReadBytes .out 0 n).2 with
        hostLog := s.hostLog ++ [.bytes .out 0 (r.hostReadBytes .out 0 n).1] }) ∧
      (s.phase.isBusy = false → s.params.pixMax < n → step s = .fault .noSuchByte)) := by
  rw [step_of_due h hd]
  subst hq
  refine ⟨fun n v ho hn => ?_, fun b i bytes ho => ?_, fun n ho => ?_, fun b i n ho => ?_, fun ho n r hn hr => ?_⟩ <;> rw [ho]
  · exact if_neg hn
  · rfl
  · exact congrArg Host.Outcome.next (doReadReg_eq _ n)
  · exact ⟨doReadBuf_reads (s := { s with script := rest }), doReadBuf_beyond (s := { s with script := rest })⟩
  · exact doReadOut_cases hn hr

/-- Settles O13, clause by clause: `STATUS`, the register numbers, what writes store, what reads return, and the step of a due
access. -/
theorem hostRegisterAccess : Obligations.HostRegisterAccess := by
  refine ⟨fun s => ⟨?_, fun k hk => statusWord_getLsbD s hk⟩, fun s => rfl, fun s n v hb hn => doWriteReg_stores v hb hn,
    fun s n v hn => doWriteReg_ignored s v hn, fun s n => regAt_reserved s, fun s n v hb => doWriteReg_of_busy hb n v,
    fun s n v hn => if_neg hn, fun s b i bytes hb => if_pos hb,
    fun s b i bytes hb => ⟨doWriteBuf_beyond hb, doWriteBuf_stores hb⟩, hostReadReg_status,
    fun s n hb hn => hostReadReg_of_busy hb hn, fun s n hb hn => ?_, fun s n specified hb hs => ?_,
    fun s b i n => ⟨hostReadBytes_length s b i n, fun hb => ?_, fun hb => ?_⟩, fun s item rest h hd q hq => step_accesses h hd hq⟩
  · rw [statusWord_phase]
    cases s.phase <;> rfl
  · rw [hostReadReg_of_not_busy n hb, regSpecified_of_not_result s hn, if_pos rfl]
  · rw [hostReadReg_of_not_busy n hb, regSpecified_cases hs]
  · rw [hostReadBytes_of_busy hb]
    exact ⟨rfl, fun k hk => getD_map_range _ _ hk⟩
  · refine ⟨by rw [hostReadBytes_of_not_busy hb], fun k hk => ?_⟩
    rw [hostReadBytes_getD hb b hk]
    refine if_congr (byteSpecified_iff s b (i + k)) rfl ?_
    cases b <;> rfl

end Sys2Proof.Machine
end

section
/-! Where the machine writes: the buffers after a command or an element are the buffers before it after some writes, and where each write
ends. Every write keeps the canonical form, and one that ends below the buffer's capacity keeps the bytes there (10_state.md R38;
20_memory.md R70, R71). -/

namespace Sys2Proof.Machine

/-! ### Buffers by name -/

theorem memoryInv_iff (s : State) : s.MemoryInv ↔ ∀ k, (s.buf.get k).wf := by
  refine ⟨fun ⟨h1, h2, h3, h4, h5, h6, h7, h8⟩ k => ?_, fun h =>
    ⟨h .inp, h .raw, h .tile, h .canvas, h .save, h .out, h .pal, h .trns⟩⟩
  cases k <;> assumption

theorem capacityInv_iff (s : State) : s.CapacityInv ↔ ∀ k, Memory.Below (s.buf.get k) (s.params.capacity k) := by
  refine ⟨fun ⟨h1, h2, h3, h4, h5, h6, h7, h8⟩ k => ?_, fun h =>
    ⟨h .inp, h .raw, h .tile, h .canvas, h .save, h .out, h .pal, h .trns⟩⟩
  cases k <;> assumption

/-- A property of every buffer is kept by a write that keeps it of the buffer written. -/
theorem get_put_keeps {Q : Buf → Memory → Prop} {b : Buffers} {k : Buf} {m : Memory} (h : ∀ j, Q j (b.get j)) (hm : Q k m) (j : Buf) :
    Q j ((b.put k m).get j) := by
  by_cases hj : j = k
  · subst hj
    rwa [buf_put_get_same]
  · rw [buf_put_get_other b k j m hj]
    exact h j

/-- A write inside a buffer's capacity keeps every byte below its buffer's capacity (20_memory.md R71). -/
theorem writeBytes_capacityInv {s : State} (h : s.CapacityInv) {b : Buf} {i : Nat} {bs : List Byte}
    (hb : i + bs.length ≤ s.params.capacity b) : (s.writeBytes b i bs).CapacityInv := by
  have hk := (capacityInv_iff s).1 h
  exact (capacityInv_iff _).2
    (get_put_keeps (Q := fun k m => Memory.Below m (s.params.capacity k)) hk (write_below (hk b) i bs hb))

/-! ### Sequences of writes -/

/-- The second buffers are the first after writes, first write first, each ending where `ends` admits it. -/
inductive Buffers.Written (ends : Buf → Nat → Prop) : Buffers → Buffers → Prop
  | refl (b : Buffers) : Buffers.Written ends b b
  | write {b c : Buffers} (k : Buf) (i : Nat) (bs : List Byte) : ends k (i + bs.length) →
      Buffers.Written ends (b.put k (Memory.write (b.get k) i bs)) c → Buffers.Written ends b c

namespace Buffers.Written

variable {ends : Buf → Nat → Prop}

theorem one {b : Buffers} {k : Buf} {i n : Nat} {bs : List Byte} (hn : i + bs.length = n) (h : ends k n) :
    b.Written ends (b.put k (Memory.write (b.get k) i bs)) :=
  .write k i bs (hn ▸ h) (.refl _)

theorem trans {b c d : Buffers} (h : b.Written ends c) (h' : c.Written ends d) : b.Written ends d := by
  induction h with
  | refl _ => exact h'
  | write k i bs he _ ih => exact .write k i bs he (ih h')

/-- What each of the writes keeps of its buffer, they all keep of every buffer. -/
theorem keeps {Q : Buf → Memory → Prop} {b c : Buffers}
    (hw : ∀ {k m} (i : Nat) (bs : List Byte), ends k (i + bs.length) → Q k m → Q k (Memory.write m i bs))
    (h : b.Written ends c) (hq : ∀ k, Q k (b.get k)) : ∀ k, Q k (c.get k) := by
  induction h with
  | refl _ => exact hq
  | write k i bs he _ ih => exact ih (get_put_keeps hq (hw i bs he (hq k)))

end Buffers.Written

/-- `n` is an end inside buffer `k`, if the sizes the machine holds are legal. -/
abbrev State.EndsInside (s : State) (k : Buf) (n : Nat) : Prop := s.SizeInv → n ≤ s.params.capacity k

/-- `t` has the buffers of `s` after writes that end inside them, and the same parameters. -/
def State.WritesInside (s t : State) : Prop := t.params = s.params ∧ s.buf.Written s.EndsInside t.buf

theorem memoryInv_of_writes {s t : State} (h : s.MemoryInv) (hw : s.WritesInside t) : t.MemoryInv := by
  obtain ⟨-, hw⟩ := hw
  exact (memoryInv_iff t).2 (hw.keeps (Q := fun _ m => m.wf) (fun i bs _ hm => write_wf hm i bs) ((memoryInv_iff s).1 h))

theorem capacityInv_of_writes {s t : State} (hs : s.SizeInv) (h : s.CapacityInv) (hw : s.WritesInside t) : t.CapacityInv := by
  obtain ⟨hp, hw⟩ := hw
  refine (capacityInv_iff t).2 (hp ▸ ?_)
  exact hw.keeps (Q := fun k m => Memory.Below m (s.params.capacity k)) (fun i bs he hm => write_below hm i bs (he hs))
    ((capacityInv_iff s).1 h)

/-! ### Where a scanline writes (42_scanline.md R240, 43_deinterlace.md R280 to R282) -/

/-- Pixels `x .. x + n` of row `y` end inside a `w` by `h` image (20_memory.md R77). -/
theorem pixels_inside {x y n w h : Nat} (hy : y < h) (hx : x + n ≤ w) : 4 * (y * w + x) + 4 * n ≤ 4 * w * h := by
  have hrow : y * w + w ≤ h * w := (Nat.succ_mul y w).symm.trans_le (Nat.mul_le_mul_right w hy)
  calc 4 * (y * w + x) + 4 * n ≤ 4 * (h * w) := by omega
    _ = 4 * w * h := by ring

/-- A pass stays inside the extent it samples (43_deinterlace.md R281). -/
theorem passExtent_inside {extent start step i : Nat} (h : i < passExtent extent start step) : start + i * step < extent := by
  unfold passExtent at h
  split at h
  · have hm : (i + 1) * step ≤ extent - start + step - 1 := (Nat.mul_le_mul_right step h).trans (Nat.div_mul_le_self _ _)
    rw [Nat.succ_mul] at hm
    omega
  · omega

/-- Row `r` and column `c` of a pass are a pixel of the image (43_deinterlace.md R282). -/
theorem pass_inside {w h : Nat} {il : Bool} {p : Pass} (hp : p ∈ passList w h il) {r c : Nat} (hr : r < p.ph) (hc : c < p.pw) :
    p.sr + r * p.rs < h ∧ p.sc + c * p.cs < w := by
  cases il with
  | true =>
    obtain ⟨⟨sr, sc, rs, cs⟩, -, rfl⟩ := List.mem_map.1 hp
    exact ⟨passExtent_inside hr, passExtent_inside hc⟩
  | false =>
    obtain rfl := List.mem_singleton.1 hp
    simpa using And.intro hr hc

/-- The pixels of a running RECON's line are pixels of the image. -/
theorem lineIndex_inside {s : State} (h : s.SizeInv) (hp : s.phase = .busy .scanline) {col : Nat} (hc : col < s.currentPass.pw) :
    s.lineIndex col + 4 ≤ s.params.pixMax := by
  obtain ⟨-, -, -, hrecon, -⟩ := h
  obtain ⟨⟨-, -, hsize⟩, hi, -, hrow⟩ := hrecon hp
  have hmem : s.currentPass ∈ s.passes := by
    rw [State.currentPass, List.getD_eq_getElem _ _ hi]
    exact List.getElem_mem hi
  obtain ⟨hy, hx⟩ := pass_inside hmem hrow hc
  exact (pixels_inside (n := 1) hy hx).trans hsize

/-- A weaker ending of the same operation. -/
theorem Res.Ends.imp {α : Type} {P P' : α → State → Prop} {Q Q' : State → Prop} {r : Res α} (h : r.Ends P Q)
    (hp : ∀ a s, P a s → P' a s) (hq : ∀ s, Q s → Q' s) : r.Ends P' Q' := by
  cases h with
  | ok h => exact .ok (hp _ _ h)
  | raised h => exact .raised (hq _ h)

/-- The pixels of a line are written one by one. -/
theorem writePixels_written {ends : Buf → Nat → Prop} : ∀ (n : Nat) (s : State) (col : Nat),
    (∀ c, c < col + n → ends .tile (s.lineIndex c + 4)) →
    (s.writePixels n col).Ends (fun _ t => s.buf.Written ends t.buf) (fun t => s.buf.Written ends t.buf)
  | 0, s, _, _ => .ok (.refl _)
  | n + 1, s, col, h => by
    rw [State.writePixels]
    cases s.pixel s.u2.cur col with
    | none => exact .raised (.refl _)
    | some px =>
      have hw := writePixels_written n (s.writeBytes .tile (s.lineIndex col) px.bytes) (col + 1) (fun c hc => h c (by omega))
      have hc : ends .tile (s.lineIndex col + px.bytes.length) := h col (by omega)
      exact hw.imp (fun _ _ => .write _ _ _ hc) (fun _ => .write _ _ _ hc)

theorem nextLine_buf (s : State) : s.nextLine.buf = s.buf := by
  obtain ⟨u, h⟩ | h := nextLine_cases s
  · rw [h]
  · rw [h]
    rfl

theorem reconLine_written {ends : Buf → Nat → Prop} {s : State} (ft : Filter)
    (h : ∀ c, c < s.currentPass.pw → ends .tile (s.lineIndex c + 4)) : s.buf.Written ends (s.reconLine ft).buf := by
  have hw := writePixels_written (ends := ends) s.currentPass.pw (s.takeLine ft) 0 (fun c hc => h c (by omega))
  unfold State.reconLine
  generalize State.writePixels _ _ _ = r at hw
  cases hw with
  | ok hw => exact (nextLine_buf _).symm ▸ hw
  | raised hw => exact hw

theorem scanline_writesInside {s t : State} (hp : s.phase = .busy .scanline) (he : s.piece .scanline = .next t) :
    s.WritesInside t := by
  have hr : s.run .filter _ = .next t := he
  obtain ⟨⟨hpar, -⟩, -⟩ := run_filter_frame hr
  refine ⟨hpar, ?_⟩
  obtain ⟨ft, rfl⟩ | rfl := run_filter hr
  · exact reconLine_written ft fun c hc hs => lineIndex_inside hs hp hc
  · exact .refl _

/-! ### Where COMPOSE writes (44_compositor.md R291 to R300) -/

/-- A row of pixels has four bytes for each (20_memory.md R77). -/
theorem length_pixels (f : Nat → Pixel) (n : Nat) : ((List.range n).flatMap fun i => (f i).bytes).length = 4 * n := by
  simp [List.length_flatMap, Pixel.bytes, Nat.mul_comm]

/-- The rectangle's rows are written one by one. -/
theorem mapRows_written {ends : Buf → Nat → Prop} (f : State → Nat → Nat → Pixel) : ∀ (n : Nat) (s : State),
    n ≤ s.regs.fH.toNat → (∀ j, j < s.regs.fH.toNat → ends .canvas (s.canvasIndex 0 j + 4 * s.regs.fW.toNat)) →
    s.buf.Written ends (s.mapRows f n).buf
  | 0, _, _, _ => .refl _
  | n + 1, s, hn, h => by
    have hj : s.regs.fH.toNat - (n + 1) < s.regs.fH.toNat := by omega
    refine .write .canvas _ _ ?_ (mapRows_written f n (s.writeBytes .canvas _ _) (Nat.le_of_succ_le hn) h)
    rw [length_pixels]
    exact h _ hj

/-- The rows of a rectangle inside the canvas are inside the canvas (44_compositor.md R291, R292). -/
theorem canvasIndex_inside {s : State} (h : s.RectInside) {j : Nat} (hj : j < s.regs.fH.toNat) :
    s.canvasIndex 0 j + 4 * s.regs.fW.toNat ≤ s.canvasBytes := by
  obtain ⟨hx, hy⟩ := h
  exact pixels_inside (by omega) hx

/-- A running COMPOSE has a canvas that fits its buffer, and a rectangle inside it. -/
theorem compose_inside {s : State} (h : s.SizeInv) (hp : s.phase = .busy .blend ∨ s.phase = .busy .dispose) :
    s.canvasBytes ≤ s.params.pixMax ∧ s.RectInside := by
  obtain ⟨-, -, -, -, hcompose⟩ := h
  obtain ⟨⟨-, -, hsize⟩, hrect⟩ := hcompose hp
  exact ⟨hsize, hrect⟩

theorem mapRect_writesInside {s : State} (hp : s.phase = .busy .blend ∨ s.phase = .busy .dispose) (f : State → Nat → Nat → Pixel) :
    s.WritesInside (s.mapRect f) := by
  refine ⟨?_, mapRows_written f _ s le_rfl fun j hj hs => ?_⟩
  · obtain ⟨m, hm⟩ := mapRect_canvas s f
    rw [hm]
  · obtain ⟨hsize, hrect⟩ := compose_inside hs hp
    exact (canvasIndex_inside hrect hj).trans hsize

theorem copyBuf_written {ends : Buf → Nat → Prop} (s : State) (src : Buf) {dst : Buf} {n : Nat} (h : ends dst n) :
    s.buf.Written ends (s.copyBuf src dst n).buf :=
  .one (by rw [bytesAt_length, Nat.zero_add]) h

theorem countFrame_buf (s : State) : s.countFrame.buf = s.buf := by
  obtain ⟨n, c, h⟩ := countFrame_state s
  rw [h]

/-- The snapshot copies the canvas (44_compositor.md R297). -/
theorem snapshot_written {ends : Buf → Nat → Prop} {s : State} (h : ends .out s.canvasBytes) :
    s.buf.Written ends s.snapshot.buf := by
  have hb : s.snapshot.buf = (s.copyBuf .canvas .out s.canvasBytes).buf := countFrame_buf _
  exact hb ▸ copyBuf_written s .canvas h

theorem blend_writesInside {s t : State} (hp : s.phase = .busy .blend) (he : s.piece .blend = .next t) : s.WritesInside t := by
  obtain ⟨f, rfl⟩ | ⟨-, rfl⟩ := run_blend (show s.run .blend _ = .next t from he)
  · obtain ⟨hpar, hw⟩ := mapRect_writesInside (.inl hp) f
    obtain ⟨m, hm⟩ := mapRect_canvas s f
    have hc : (s.mapRect f).canvasBytes = s.canvasBytes := by rw [hm]; rfl
    obtain ⟨o, l, x, y, n, c, hs⟩ := snapshot_state (s.mapRect f)
    refine ⟨?_, hw.trans (snapshot_written fun hs => hc.trans_le (compose_inside hs (.inl hp)).1)⟩
    rw [setPhase_params, hs]
    exact hpar
  · exact ⟨rfl, .refl _⟩

theorem dispose_writesInside {s t : State} (hp : s.phase = .busy .dispose) (he : s.piece .dispose = .next t) :
    s.WritesInside t := by
  obtain ⟨-, rfl⟩ | ⟨-, f, rfl⟩ | ⟨-, rfl⟩ | ⟨-, rfl⟩ := run_dispose (show s.run .dispose _ = .next t from he)
  · exact ⟨rfl, .refl _⟩
  · exact mapRect_writesInside (.inr hp) f
  · have hw : s.WritesInside (s.copyBuf .save .canvas s.canvasBytes) :=
      ⟨rfl, copyBuf_written s .save fun hs => (compose_inside hs (.inr hp)).1⟩
    exact hw
  · exact ⟨rfl, .refl _⟩

/-- Where an element of a unit other than U1 writes. -/
theorem piece_writesInside {s t : State} {a : Await} (ha : a.isU1 = false) (hp : s.phase = .busy a) (he : s.piece a = .next t) :
    s.WritesInside t := by
  cases a with
  | scanline => exact scanline_writesInside hp he
  | blend => exact blend_writesInside hp he
  | dispose => exact dispose_writesInside hp he
  | _ => cases ha

/-! ### Where a command writes (40_commands.md R149 to R152) -/

/-- A pixel buffer has room for a 32 by 32 image (00_scope.md R5). -/
theorem pixMax_ge {s : State} (h : s.SizeInv) : 4096 ≤ s.params.pixMax := by
  obtain ⟨⟨-, -, -, -, -, -, hpix, -⟩, -⟩ := h
  exact hpix

theorem initCanvas_written {ends : Buf → Nat → Prop} {s : State} (h : ends .canvas (4 * s.regs.imgW.toNat * s.regs.imgH.toNat)) :
    s.buf.Written ends s.initCanvas.buf :=
  .one (bs := List.replicate (4 * s.regs.imgW.toNat * s.regs.imgH.toNat) 0) (i := 0)
    (by rw [List.length_replicate, Nat.zero_add]) h

/-- What CANVAS_INIT has checked of its size (40_commands.md R149). -/
theorem size_of_canvasInitAdmission {s : State} (h : s.canvasInitAdmission = none) : s.SizeOk s.regs.imgW s.regs.imgH := by
  have := (firstFailing_none _ _).1 h _ (List.mem_singleton_self _)
  simpa [and_assoc] using this

/-- What COMPOSE has checked of its buffers (40_commands.md R150). -/
theorem valid_of_composeAdmission {s : State} (h : s.composeAdmission = none) : s.valid.tile = true ∧ s.valid.canvas = true := by
  have := (firstFailing_none _ _).1 h (s.valid.tile && s.valid.canvas, .bufferNotValid) (by simp)
  simpa using this

/-- COMPOSE saves the canvas for restorePrevious alone (44_compositor.md R293). -/
theorem startCompose_written {ends : Buf → Nat → Prop} {s : State} (h : ends .save s.canvasBytes) :
    s.buf.Written ends s.startCompose.buf := by
  unfold State.startCompose
  dsimp only
  split
  · exact copyBuf_written ((s.openDest .canvas).openDest .out) .canvas h
  · exact .refl _

theorem putOut_written {ends : Buf → Nat → Prop} (s : State) (bs : List Byte) (w h : Nat) (hb : ends .out bs.length) :
    s.buf.Written ends (s.putOut bs w h).buf :=
  .one (k := .out) (i := 0) (Nat.zero_add _) hb

/-! ### The sizes of hashes and of decoded images (45_dct_hash.md R320, R342, R345) -/

/-- At most `nx` by `ny` frequency pairs (45_dct_hash.md R327). -/
theorem freqPairs_length_le (nx ny : Nat) : (freqPairs nx ny).length ≤ ny * nx := by
  unfold freqPairs
  rw [List.length_flatMap]
  refine (List.sum_le_card_nsmul _ nx fun n hn => ?_).trans_eq (by simp)
  obtain ⟨cy, -, rfl⟩ := List.mem_map.1 hn
  rw [List.length_map]
  exact (List.length_filter_le _ _).trans_eq List.length_range

/-- A grid count is at most its cap, the side being at most the larger one (45_dct_hash.md R324). -/
theorem gridCount_le {cap side m : Nat} (hc : 1 ≤ cap) (hs : side ≤ m) : gridCount cap side m ≤ cap := by
  refine max_le hc ?_
  obtain rfl | hm := Nat.eq_zero_or_pos m
  · rw [Nat.mul_zero, Nat.div_zero]
    exact Nat.zero_le _
  · have hle : 2 * cap * side ≤ 2 * cap * m := Nat.mul_le_mul_left _ hs
    have hlt : 2 * cap * side + m < (2 * m) * (cap + 1) := calc
      2 * cap * side + m < 2 * cap * m + 2 * m := by omega
      _ = (2 * m) * (cap + 1) := by ring
    exact Nat.le_of_lt_succ (Nat.div_lt_of_lt_mul hlt)

/-- Nibbles take at most a byte each (45_dct_hash.md R335). -/
theorem packNibbles_length_le : ∀ l : List Nat, (packNibbles l).length ≤ l.length
  | [] => le_rfl
  | [_] => le_rfl
  | _ :: _ :: rest => by
    have := packNibbles_length_le rest
    simp only [packNibbles, List.length_cons]
    omega

theorem leBytes_length : ∀ (n v : Nat), (leBytes v n).length = n
  | 0, _ => rfl
  | n + 1, v => congrArg (· + 1) (leBytes_length n (v / 256))

/-- A luminance grid is at most 7 wide and high (45_dct_hash.md R324, R329). -/
theorem gridSide_le (hasAlpha : Bool) {side m : Nat} (h : side ≤ m) : max 3 (gridCount (gridCap hasAlpha) side m) ≤ 7 := by
  have hcap : 1 ≤ gridCap hasAlpha ∧ gridCap hasAlpha ≤ 7 := by cases hasAlpha <;> decide
  exact max_le (by decide) ((gridCount_le hcap.1 h).trans hcap.2)

/-- A channel has at most as many AC nibbles as its grid has pairs (45_dct_hash.md R329). -/
theorem nibbles_length_le {N : Type} (ns : NumberSystem N) (w h nx ny : Nat) (ch : List N) :
    ((coeffs ns w h nx ny ch).nibbles ns).length ≤ ny * nx := by
  have := freqPairs_length_le nx ny
  simp only [Coeffs.nibbles, coeffs, acPairs, List.length_map, List.length_drop]
  omega

/-- A hash is far smaller than the smallest `OUT` (00_scope.md R5, 45_dct_hash.md R320). -/
theorem hashEncode_length_le {N : Type} (ns : NumberSystem N) (w h : Nat) (px : List Pixel) :
    (hashEncode ns w h px).length ≤ 4096 := by
  have hl := (nibbles_length_le ns w h _ _ (channelsOf ns px).l).trans (Nat.mul_le_mul
    (gridSide_le (hasAlphaOf w h px) (le_max_right w h)) (gridSide_le (hasAlphaOf w h px) (le_max_left w h)))
  have hp := nibbles_length_le ns w h 3 3 (channelsOf ns px).p
  have hq := nibbles_length_le ns w h 3 3 (channelsOf ns px).q
  have ha := nibbles_length_le ns w h 5 5 (channelsOf ns px).a
  unfold hashEncode
  dsimp only
  rw [List.length_append, List.length_append, List.length_append, leBytes_length, leBytes_length]
  refine (Nat.add_le_add_left (packNibbles_length_le _) _).trans ?_
  rw [List.length_append, List.length_append, List.length_append]
  split <;> simp only [List.length_cons, List.length_nil] <;> omega

theorem hashEncodeWith_length_le (n : Numerics) (w h : Nat) (px : List Pixel) : (hashEncodeWith n w h px).length ≤ 4096 := by
  cases n with
  | exactReals => exact hashEncode_length_le _ w h px
  | other => exact hashEncode_length_le _ w h px

/-- The shorter side of a decoded image is at most the longer one (45_dct_hash.md R342). -/
theorem side32_le {a b : Nat} (h : a ≤ b) : side32 a b ≤ 32 := by
  obtain rfl | hb := Nat.eq_zero_or_pos b
  · exact (Nat.div_zero _).trans_le (Nat.zero_le _)
  · exact Nat.le_of_lt_succ (Nat.div_lt_of_lt_mul (by omega))

/-- A decoded image is at most 32 by 32 (45_dct_hash.md R342). -/
theorem outSize_le (hd : HashHeader) : hd.outW ≤ 32 ∧ hd.outH ≤ 32 := by
  unfold HashHeader.outW HashHeader.outH
  split
  · exact ⟨le_rfl, side32_le (by omega)⟩
  · exact ⟨side32_le (by omega), le_rfl⟩

/-- The decoded image has its pixels row by row (45_dct_hash.md R350). -/
theorem hashDecode_length {N : Type} (ns : NumberSystem N) (hd : HashHeader) (bytes : List Byte) :
    (hashDecode ns hd bytes).length = hd.outH * hd.outW := by
  simp [hashDecode, List.length_flatMap]

theorem hashDecodeWith_length (n : Numerics) (hd : HashHeader) (bytes : List Byte) :
    (hashDecodeWith n hd bytes).length = hd.outH * hd.outW := by
  cases n with
  | exactReals => exact hashDecode_length _ hd bytes
  | other => exact hashDecode_length _ hd bytes

/-- A decoded image fits the smallest `OUT` (00_scope.md R5, 45_dct_hash.md R342). -/
theorem decodedBytes_length_le (n : Numerics) (hd : HashHeader) (bytes : List Byte) :
    ((hashDecodeWith n hd bytes).flatMap Pixel.bytes).length ≤ 4096 := by
  obtain ⟨hw, hh⟩ := outSize_le hd
  have : hd.outH * hd.outW ≤ 32 * 32 := Nat.mul_le_mul hh hw
  have hlen : ((hashDecodeWith n hd bytes).flatMap Pixel.bytes).length = hd.outH * hd.outW * 4 := by
    rw [← hashDecodeWith_length n hd bytes]
    simp [List.length_flatMap, Pixel.bytes]
  omega

/-- Where a command writes at its start. -/
theorem start_writesInside {s t : State} (h : s.Starts t) : s.WritesInside t := by
  cases h with
  | canvasInit ha => exact ⟨rfl, initCanvas_written fun _ => (size_of_canvasInitAdmission ha).2.2⟩
  | compose ha =>
    refine ⟨?_, startCompose_written fun hs => ?_⟩
    · obtain ⟨m, f, hc⟩ := startCompose_state s
      rw [hc]
    · obtain ⟨-, -, hcanvas, -⟩ := hs
      exact (hcanvas (valid_of_composeAdmission ha).2).2.2
  | hashEnc _ =>
    have hw := putOut_written (ends := s.EndsInside) (s.openDest .out) _ 0 0 fun hs =>
      (hashEncodeWith_length_le s.params.numerics s.regs.hW.toNat s.regs.hH.toNat s.hashPixels).trans (pixMax_ge hs)
    exact ⟨rfl, hw⟩
  | hashDec _ =>
    have hw := putOut_written (ends := s.EndsInside) (s.openDest .out) _ s.header.outW
      s.header.outH fun hs => (decodedBytes_length_le s.params.numerics s.header s.hashBytes).trans (pixMax_ge hs)
    exact ⟨rfl, hw⟩
  | nop | inflate _ | recon _ | hashAvg _ | hashAspect _ => exact ⟨rfl, .refl _⟩

end Sys2Proof.Machine
end

section
/-! The canonical form of the buffers and their bounds, kept by every step (10_state.md R38; 20_memory.md R70, R71). -/

namespace Sys2Proof.Machine

/-! ### The canonical form -/

/-- Every action of the host keeps the canonical form. -/
theorem memoryInv_keptByHost : KeptByHost State.MemoryInv where
  queue _ _ _ h := h
  write _ _ _ h := h
  store b i bs _ _ h := writeBytes_memoryInv h b.buf i bs
  reset {s} _ := reset_memoryInv s.params
  refuse _ _ _ h := h
  clear _ h := h
  start _ hs h := memoryInv_of_writes h (start_writesInside hs)

/-- U1 keeps the canonical form: it writes `RAW` byte by byte (41_inflate.md R175). -/
theorem memoryInv_keptByInflate : KeptByInflate State.MemoryInv State.MemoryInv where
  raise _ h := h
  bit _ h := h
  align h := h
  below {s} b _ h := writeBytes_memoryInv h .raw s.regs.rawLen.toNat [b]
  grown {s} b _ _ h := writeBytes_memoryInv (s := s.grown) h .raw s.regs.rawLen.toNat [b]
  storedLen _ h := h
  matchLen _ h := h
  unit _ _ h := h
  await _ _ h := h
  finish h := h

/-- Every piece of an element keeps the canonical form. -/
theorem memoryInv_piece {s t : State} {a : Await} (hp : s.phase = .busy a) (h : s.MemoryInv) (he : s.piece a = .next t) :
    t.MemoryInv := by
  by_cases ha : a.isU1 = true
  · exact (memoryInv_keptByInflate.piece ha h he).elim id id
  · exact memoryInv_of_writes h (piece_writesInside (Bool.eq_false_of_not_eq_true ha) hp he)

/-- Settles O53: every action of the host and every piece of an element leaves the buffers as they were after some writes, and a write
keeps the canonical form. -/
theorem stepKeepsMemoryInv : Obligations.StepKeepsMemoryInv := by
  intro s t h he
  exact memoryInv_keptByHost.step (fun ha h he => element_preserves (fun _ _ _ => memoryInv_piece) 31 _ _ _ ha h he) h he

/-! ### The bounds: U1 -/

/-- A running INFLATE whose buffers are inside their capacities. -/
def State.InflateInside (s : State) : Prop := s.InflateBounds ∧ s.CapacityInv

/-- A byte put out below `RAW_CAP` is below `RAW_MAX` (41_inflate.md R175). -/
theorem capacityInv_append {s : State} (b : Byte) (hi : s.InflateBounds) (hc : s.regs.rawLen ≠ s.regs.rawCap) (h : s.CapacityInv) :
    (s.appendRaw b).CapacityInv := by
  obtain ⟨⟨-, -, -, -, -, hlen, hcap, -⟩, -⟩ := hi
  have hne : s.regs.rawLen.toNat ≠ s.regs.rawCap.toNat := fun he => hc (BitVec.eq_of_toNat_eq he)
  have hb : s.regs.rawLen.toNat + 1 ≤ s.params.rawMax := by omega
  exact writeBytes_capacityInv (b := .raw) (bs := [b]) h hb

/-- `RAW_CAP` grown is not `RAW_LEN`, which is the capacity before (41_inflate.md R176). -/
theorem grown_rawCap_ne {s : State} (hi : s.InflateBounds) (hc : s.regs.rawLen = s.regs.rawCap)
    (hm : s.regs.rawCap.toNat < s.params.rawMax) : s.grown.regs.rawLen ≠ s.grown.regs.rawCap := by
  intro he
  have hlt := (inflateBounds_grown hm hi).2
  have hg : s.regs.rawLen.toNat = s.grown.regs.rawCap.toNat := congrArg BitVec.toNat he
  rw [hc] at hg
  omega

/-- U1 writes inside `RAW`. -/
theorem inflateInside_kept : KeptByInflate State.InflateInside State.CapacityInv where
  raise _ h := h.2
  bit hb := fun ⟨hi, h⟩ => ⟨inflateBounds_kept.bit hb hi, h⟩
  align := fun ⟨hi, h⟩ => ⟨inflateBounds_kept.align hi, h⟩
  below b hc := fun ⟨hi, h⟩ => ⟨inflateBounds_kept.below b hc hi, capacityInv_append b hi hc h⟩
  grown b hc hm := fun ⟨hi, h⟩ =>
    ⟨inflateBounds_kept.grown b hc hm hi, capacityInv_append b (inflateBounds_grown hm hi).1 (grown_rawCap_ne hi hc hm) h⟩
  storedLen n := fun ⟨hi, h⟩ => ⟨inflateBounds_kept.storedLen n hi, h⟩
  matchLen n := fun ⟨hi, h⟩ => ⟨inflateBounds_kept.matchLen n hi, h⟩
  unit u hu := fun ⟨hi, h⟩ => ⟨inflateBounds_kept.unit u hu hi, h⟩
  await a ha := fun ⟨hi, h⟩ => ⟨inflateBounds_kept.await a ha hi, h⟩
  finish h := h.2

/-! ### The bounds: one element -/

/-- U1 goes on with U1 or ends. -/
theorem isU1_of_mem_successors {a : Await} (ha : a.isU1 = true) : ∀ p ∈ a.successors, p.isBusy = true → p.isU1 = true := by
  cases a with
  | scanline | blend | dispose => cases ha
  | _ => decide

/-- The other units never go on with U1. -/
theorem not_isU1_of_mem_successors {a : Await} (ha : a.isU1 = false) : ∀ p ∈ a.successors, p.isU1 = false := by
  cases a with
  | scanline | blend | dispose => decide
  | _ => cases ha

/-- Only an element of U1 has more than one piece. -/
theorem isU1_of_rest? {s : State} {b : Await} (h : s.rest? = some b) : s.phase.isU1 = true := by
  obtain ⟨hp, hb⟩ := (rest?_iff s b).1 h
  rw [hp]
  obtain rfl | rfl | rfl | rfl | ⟨rfl, -⟩ := hb <;> rfl

/-- An element of a unit other than U1 is one piece (10_state.md R40). -/
theorem piece_of_element {s t : State} {a : Await} (ha : a.isU1 = false) (hp : s.phase = .busy a) : ∀ {n : Nat},
    s.element a n = .next t → s.piece a = .next t
  | 0, he => he
  | n + 1, he => by
    rw [State.element] at he
    split at he
    · rename_i u hu
      split at he
      · rename_i b hb
        exact Bool.noConfusion ((isU1_of_rest? hb).symm.trans (not_isU1_of_mem_successors ha _ (piece_successor hp hu)))
      · exact hu.trans he
    · cases he
    · cases he

/-- What holds between the pieces of an element of U1. -/
def State.StreamInside (s : State) : Prop :=
  s.InflateInv ∧ s.CapacityInv ∧ (s.phase.isBusy = true → s.phase.isU1 = true)

theorem streamInside_piece {s t : State} {a : Await} (hp : s.phase = .busy a) (h : s.StreamInside) (he : s.piece a = .next t) :
    t.StreamInside := by
  obtain ⟨hi, hc, hu⟩ := h
  have hu : s.phase.isU1 = true := hu (by rw [hp]; rfl)
  have ha : a.isU1 = true := by rwa [hp] at hu
  refine ⟨inflateInv_piece hp hi he, ?_, isU1_of_mem_successors ha _ (piece_successor hp he)⟩
  exact (inflateInside_kept.piece ha ⟨⟨hi, hu⟩, hc⟩ he).elim (·.2) id

/-- Every element writes inside the buffers. -/
theorem capacityInv_element {s t : State} {a : Await} (hp : s.phase = .busy a) (h : s.Inv) (he : s.element a 31 = .next t) :
    t.CapacityInv := by
  obtain ⟨-, -, hi, hs, hc⟩ := h
  cases ha : a.isU1 with
  | false => exact capacityInv_of_writes hs hc (piece_writesInside ha hp (piece_of_element ha hp he))
  | true =>
    have hin : s.StreamInside := ⟨hi, hc, fun _ => by rw [hp]; exact ha⟩
    obtain ⟨-, hc', -⟩ := element_preserves (fun _ _ _ => streamInside_piece) 31 s t a hp hin he
    exact hc'

theorem capacityInv_proceed {s t : State} (h : s.Inv) (he : s.proceed = .next t) : t.CapacityInv := by
  obtain rfl | ⟨a, hp, hu⟩ := proceed_cases he
  · obtain ⟨-, -, -, -, hc⟩ := h
    exact hc
  · exact capacityInv_element hp h hu

/-! ### The bounds: the host -/

/-- A command writes inside the buffers (40_commands.md R142). -/
theorem capacityInv_command {s t : State} {w : Nat} (h : s.Inv) (he : exec (decodeCmd w) s = .next t) : t.CapacityInv := by
  obtain ⟨-, -, -, hs, hc⟩ := h
  obtain rfl | ⟨-, f, u, rfl⟩ | ⟨-, rfl⟩ | ⟨-, hst⟩ := execCommand_cases he
  · exact hc
  · exact hc
  · exact hc
  · exact capacityInv_of_writes hs hc (start_writesInside hst)

theorem capacityInv_writeReg {s t : State} {n : Nat} {v : Word} (h : s.Inv) (he : s.hostWriteReg n v = .next t) :
    t.CapacityInv := by
  by_cases hn : n = 0
  · subst hn
    exact capacityInv_command h ((hostWriteReg_cmd s v).symm.trans he)
  · obtain ⟨-, -, -, -, hc⟩ := h
    rw [State.hostWriteReg, if_neg hn, State.doWriteReg] at he
    obtain rfl := Host.Outcome.next.inj he
    split
    · exact hc
    · exact hc

/-- A host write that is taken ends inside its buffer (20_memory.md R70; log entry 15). -/
theorem capacityInv_writeBuf {s t : State} {b : HostWBuf} {i : Nat} {bs : List Byte} (h : s.CapacityInv)
    (he : s.doWriteBuf b i bs = .next t) : t.CapacityInv := by
  unfold State.doWriteBuf at he
  split at he
  · exact Host.Outcome.next.inj he ▸ h
  · split at he
    · exact Host.Outcome.next.inj he ▸ writeBytes_capacityInv h ‹_›
    · cases he

theorem capacityInv_readBuf {s t : State} {b : HostRBuf} {i n : Nat} (h : s.CapacityInv) (he : s.doReadBuf b i n = .next t) :
    t.CapacityInv := by
  obtain ⟨c, l, rfl⟩ := doReadBuf_next he
  exact h

/-- After reset no buffer holds a byte (10_state.md R46). -/
theorem reset_capacityInv (p : Params) : (State.resetWith p).CapacityInv :=
  ⟨nofun, nofun, nofun, nofun, nofun, nofun, nofun, nofun⟩

/-- An action of the host writes inside the buffers, if it writes. -/
theorem capacityInv_act {s t : State} {op : HostOp} (h : s.Inv) (he : s.act op = .next t) : t.CapacityInv := by
  obtain ⟨-, -, -, -, hc⟩ := id h
  cases op with
  | writeReg n v => exact capacityInv_writeReg h he
  | writeBuf b i bs => exact capacityInv_writeBuf hc he
  | readReg n =>
    obtain ⟨c, hr⟩ := hostReadReg_state s n
    obtain rfl := Host.Outcome.next.inj he
    rw [State.doReadReg, hr]
    exact hc
  | readBuf b i n => exact capacityInv_readBuf hc he
  | readOut =>
    obtain ⟨c, hr⟩ := hostReadReg_state s 0x17
    simp only [State.act, State.doReadOut, hr] at he
    exact capacityInv_readBuf (s := { s with freeCtr := c }) hc he
  | reset => exact Host.Outcome.next.inj he ▸ reset_capacityInv s.params
  | tick => exact capacityInv_proceed h he
  | stopIfFault n =>
    obtain rfl := Host.Outcome.next.inj he
    unfold State.doStopIfFault
    split
    · exact hc
    · exact hc
  | frame a | decodeStill a | decodeAnim a => exact Host.Outcome.next.inj he ▸ hc

/-- Settles O57: the host's writes are checked against the capacity, `RAW_LEN` stays below `RAW_MAX`, and the sizes of images bound
every other write. -/
theorem stepKeepsCapacityInv : Obligations.StepKeepsCapacityInv := by
  intro s t h he
  obtain hp | ⟨item, rest, -, ha⟩ := step_cases he
  · exact capacityInv_proceed h hp
  · exact capacityInv_act (s := { s with script := rest }) h ha

end Sys2Proof.Machine
end

section
/-! The decoder and the encoder undo each other, format by format (30_encoding.md). -/

namespace Sys2Proof

/-! ### Decoding what was encoded -/

/-- A block header is its two fields (30_encoding.md R102). -/
theorem decode_hdr (bfinal : BitVec 1) (btype : BitVec 2) :
    decode .hdr (bfinal.toNat + 2 * btype.toNat) = .ok (.hdr bfinal btype) := by
  have hf := bfinal.isLt
  have ht := btype.isLt
  have h1 : BitVec.ofNat 1 (bfinal.toNat + 2 * btype.toNat) = bfinal := by bv_omega
  have h2 : BitVec.ofNat 2 ((bfinal.toNat + 2 * btype.toNat) / 2) = btype := by bv_omega
  rw [decode, if_pos (by omega), h1, h2]

/-- The counts of a dynamic block are its three fields (30_encoding.md R105). -/
theorem decode_counts (hlit hdist : BitVec 5) (hclen : BitVec 4) :
    decode .counts (hlit.toNat + 2 ^ 5 * hdist.toNat + 2 ^ 10 * hclen.toNat) = .ok (.dynCounts hlit hdist hclen) := by
  have hl := hlit.isLt
  have hd := hdist.isLt
  have hc := hclen.isLt
  have h1 : BitVec.ofNat 5 (hlit.toNat + 2 ^ 5 * hdist.toNat + 2 ^ 10 * hclen.toNat) = hlit := by bv_omega
  have h2 : BitVec.ofNat 5 ((hlit.toNat + 2 ^ 5 * hdist.toNat + 2 ^ 10 * hclen.toNat) / 2 ^ 5) = hdist := by bv_omega
  have h3 : BitVec.ofNat 4 ((hlit.toNat + 2 ^ 5 * hdist.toNat + 2 ^ 10 * hclen.toNat) / 2 ^ 10) = hclen := by bv_omega
  rw [decode, if_pos (by omega), h1, h2, h3]

/-- A meta code length is its value (30_encoding.md R105). -/
theorem decode_metaLength (length : BitVec 3) : decode .metaLength length.toNat = .ok (.dynMetaLengths length) := by
  rw [decode, if_pos length.isLt, BitVec.ofNat_toNat, BitVec.setWidth_eq]

/-- A meta symbol below 16 is a code length (30_encoding.md R107). -/
theorem decode_cln (n : BitVec 4) : decode .cl n.toNat = .ok (.cln n) :=
  (if_pos n.isLt).trans (by simp)

/-- A literal/length symbol below 256 is a byte (30_encoding.md R104). -/
theorem decode_lit (byte : Byte) : decode .ll byte.toNat = .ok (.lit byte) :=
  (if_pos byte.isLt).trans (by simp)

/-- Every filter byte from 5 on is illegal (30_encoding.md R113). -/
theorem decode_filterIllegal {ft : Byte} (h : 5 ≤ ft.toNat) : decode .filter ft.toNat = .ok (.filterIllegal ft) := by
  rw [decode, if_pos ft.isLt]
  unfold decodeFilter
  split
  case h_6 => rw [BitVec.ofNat_toNat, BitVec.setWidth_eq]
  all_goals omega

/-- An encoded well-formed instruction is what its value decodes to. -/
theorem decode_encode {i : Instr} (hi : i.wf = true) {f : Format} {w : Nat} (h : encode i = some (f, w)) :
    decode f w = .ok i := by
  cases i with
  | cmdReserved6To7 op => cases h; revert op; decide
  | cmdReserved12To15 op => cases h; revert op; decide
  | hdr bfinal btype => cases h; exact decode_hdr bfinal btype
  | dynCounts hlit hdist hclen => cases h; exact decode_counts hlit hdist hclen
  | dynMetaLengths length => cases h; exact decode_metaLength length
  | cln n => cases h; exact decode_cln n
  | lit byte => cases h; exact decode_lit byte
  | llIllegal286To287 sym =>
    have hs : sym.toNat = 286 ∨ sym.toNat = 287 := by simpa [Instr.wf] using hi
    obtain hs | hs := hs
    · obtain rfl : sym = 286 := BitVec.eq_of_toNat_eq hs
      cases h; rfl
    · obtain rfl : sym = 287 := BitVec.eq_of_toNat_eq hs
      cases h; rfl
  | dIllegal30To31 sym => cases h; revert sym; decide
  | filterIllegal ft => cases h; exact decode_filterIllegal (by simpa [Instr.wf] using hi)
  | blendReserved2To3 blend => cases h; revert blend; decide
  | frame a | decodeStill a | decodeAnim a => cases h
  | _ => cases h; rfl

/-- Only the three pseudo-commands have no encoding (30_encoding.md R121). -/
theorem pseudo_of_encode_none {i : Instr} (h : encode i = none) :
    (∃ a, i = .frame a) ∨ (∃ a, i = .decodeStill a) ∨ ∃ a, i = .decodeAnim a := by
  cases i with
  | frame a => exact .inl ⟨a, rfl⟩
  | decodeStill a => exact .inr (.inl ⟨a, rfl⟩)
  | decodeAnim a => exact .inr (.inr ⟨a, rfl⟩)
  | _ => cases h

/-- Settles O1, constructor by constructor. -/
theorem decodeOfEncode : Obligations.DecodeOfEncode :=
  fun _ hi => ⟨fun _ _ => decode_encode hi, pseudo_of_encode_none⟩

/-! ### Encoding what was decoded -/

/-- A command word is a well-formed instruction of the format CMD (30_encoding.md R100). -/
theorem encode_decodeCmd (w : Nat) : (decodeCmd w).wf = true ∧ ∃ v, encode (decodeCmd w) = some (.cmd, v) := by
  have hw : w % 16 < 16 := Nat.mod_lt _ (by decide)
  unfold decodeCmd
  generalize w % 16 = op at hw
  interval_cases op <;> exact ⟨rfl, _, rfl⟩

theorem encode_decodeBody (w : Nat) : (decodeBody w).wf = true ∧ ∃ v, encode (decodeBody w) = some (.body, v) := by
  unfold decodeBody
  split <;> exact ⟨rfl, _, rfl⟩

theorem encode_decodeBlend (w : Nat) : (decodeBlend w).wf = true ∧ ∃ v, encode (decodeBlend w) = some (.blend, v) := by
  have hw : w / 16 % 4 < 4 := Nat.mod_lt _ (by decide)
  unfold decodeBlend
  generalize w / 16 % 4 = b at hw
  interval_cases b <;> exact ⟨rfl, _, rfl⟩

theorem encode_decodeDispose (w : Nat) : (decodeDispose w).wf = true ∧ ∃ v, encode (decodeDispose w) = some (.dispose, v) := by
  unfold decodeDispose
  split <;> exact ⟨rfl, _, rfl⟩

/-- A meta symbol encodes to its number (30_encoding.md R107). -/
theorem encode_of_decodeCl {w : Nat} {i : Instr} (h : decodeCl w = .ok i) : i.wf = true ∧ encode i = some (.cl, w) := by
  unfold decodeCl at h
  split_ifs at h with hw
  · cases h
    simp [Instr.wf, encode, Nat.mod_eq_of_lt hw]
  · split at h <;> cases h <;> exact ⟨rfl, rfl⟩

/-- A literal/length symbol encodes to its number (30_encoding.md R104). -/
theorem encode_of_decodeLl {w : Nat} {i : Instr} (h : decodeLl w = .ok i) : i.wf = true ∧ encode i = some (.ll, w) := by
  unfold decodeLl at h
  split_ifs at h with hw
  · cases h
    simp [Instr.wf, encode, Nat.mod_eq_of_lt hw]
  · split at h <;> cases h <;> exact ⟨rfl, rfl⟩

/-- A distance symbol encodes to its number (30_encoding.md R104). -/
theorem encode_of_decodeD {w : Nat} {i : Instr} (h : decodeD w = .ok i) : i.wf = true ∧ encode i = some (.d, w) := by
  unfold decodeD at h
  split at h <;> cases h <;> exact ⟨rfl, rfl⟩

/-- A filter byte encodes to itself (30_encoding.md R113). -/
theorem encode_decodeFilter {w : Nat} (hw : w < 256) :
    (decodeFilter w).wf = true ∧ encode (decodeFilter w) = some (.filter, w) := by
  unfold decodeFilter
  split
  case h_6 h0 h1 h2 h3 h4 =>
    have h5 : w ≠ 0 ∧ w ≠ 1 ∧ w ≠ 2 ∧ w ≠ 3 ∧ w ≠ 4 := ⟨h0, h1, h2, h3, h4⟩
    have hv : (BitVec.ofNat 8 w).toNat = w := by simpa using Nat.mod_eq_of_lt hw
    simp only [Instr.wf, encode, hv, decide_eq_true_eq, and_true]
    omega
  all_goals exact ⟨rfl, rfl⟩

/-- The fields of a block header encode to it (30_encoding.md R102). -/
theorem encode_hdr {w : Nat} (hw : w < 8) : encode (.hdr (BitVec.ofNat 1 w) (BitVec.ofNat 2 (w / 2))) = some (.hdr, w) := by
  simp only [encode, BitVec.toNat_ofNat, Option.some.injEq, Prod.mk.injEq, true_and]
  omega

/-- The three counts of a dynamic block encode to the value they were read from (30_encoding.md R105). -/
theorem encode_counts {w : Nat} (hw : w < 2 ^ 14) :
    encode (.dynCounts (BitVec.ofNat 5 w) (BitVec.ofNat 5 (w / 2 ^ 5)) (BitVec.ofNat 4 (w / 2 ^ 10))) = some (.counts, w) := by
  simp only [encode, BitVec.toNat_ofNat, Option.some.injEq, Prod.mk.injEq, true_and]
  omega

theorem encode_metaLength {w : Nat} (hw : w < 8) : encode (.dynMetaLengths (BitVec.ofNat 3 w)) = some (.metaLength, w) := by
  simp [encode, Nat.mod_eq_of_lt hw]

/-- The formats in which every bit of a value counts. -/
abbrev Format.Exact (f : Format) : Prop := f ∈ [Format.hdr, .counts, .metaLength, .codeLengths, .cl, .ll, .d, .filter]

/-- A value inside a format's width is the instruction it is read as. -/
theorem ok_of_guarded {c : Prop} [Decidable c] {j i : Instr} {e : DecodeError}
    (h : (if c then Except.ok j else .error e) = .ok i) : c ∧ j = i := by
  split_ifs at h with hc
  exact ⟨hc, Except.ok.inj h⟩

/-- In an exact format what was decoded encodes to the value read. -/
theorem encode_of_decode_exact {f : Format} (hf : f.Exact) {w : Nat} {i : Instr} (h : decode f w = .ok i) :
    i.wf = true ∧ encode i = some (f, w) := by
  cases f with
  | hdr =>
    obtain ⟨hw, rfl⟩ := ok_of_guarded h
    exact ⟨rfl, encode_hdr hw⟩
  | counts =>
    obtain ⟨hw, rfl⟩ := ok_of_guarded h
    exact ⟨rfl, encode_counts hw⟩
  | metaLength =>
    obtain ⟨hw, rfl⟩ := ok_of_guarded h
    exact ⟨rfl, encode_metaLength hw⟩
  | codeLengths =>
    obtain ⟨rfl, rfl⟩ := ok_of_guarded h
    exact ⟨rfl, rfl⟩
  | cl => exact encode_of_decodeCl h
  | ll => exact encode_of_decodeLl h
  | d => exact encode_of_decodeD h
  | filter =>
    obtain ⟨hw, rfl⟩ := ok_of_guarded h
    exact encode_decodeFilter hw
  | cmd | body | blend | dispose => exact absurd hf (by decide)

/-- In the other formats what was decoded is well formed and has an encoding there. -/
theorem encode_of_decode_inexact {f : Format} (hf : ¬ f.Exact) {w : Nat} {i : Instr} (h : decode f w = .ok i) :
    i.wf = true ∧ ∃ v, encode i = some (f, v) := by
  cases f with
  | cmd => exact (ok_of_guarded h).2 ▸ encode_decodeCmd w
  | body => exact (ok_of_guarded h).2 ▸ encode_decodeBody w
  | blend => exact (ok_of_guarded h).2 ▸ encode_decodeBlend w
  | dispose => exact (ok_of_guarded h).2 ▸ encode_decodeDispose w
  | _ => exact absurd (by decide) hf

/-- Settles O2, by whether the format is exact. -/
theorem encodeOfDecode : Obligations.EncodeOfDecode := by
  intro f w i h
  by_cases hf : f.Exact
  · obtain ⟨hwf, he⟩ := encode_of_decode_exact hf h
    exact ⟨hwf, ⟨w, he⟩, fun _ => he⟩
  · obtain ⟨hwf, he⟩ := encode_of_decode_inexact hf h
    exact ⟨hwf, he, fun hm => absurd hm hf⟩

/-! ### The command table -/

/-- A command word from 12 on is reserved (40_commands.md R141). -/
theorem decode_cmdReserved12To15 : ∀ op : BitVec 4, 12 ≤ op.toNat → decode .cmd op.toNat = .ok (.cmdReserved12To15 op) := by
  decide

/-- Settles O3: the decoder of commands takes its value modulo 16, and the rows are its branches. -/
theorem commandWordIsLowFourBits : Obligations.CommandWordIsLowFourBits := by
  refine ⟨fun v => ?_, rfl, rfl, rfl, rfl, rfl, rfl, rfl, rfl, rfl, rfl, rfl, rfl, decode_cmdReserved12To15⟩
  have hv := v.isLt
  rw [decode, decode, if_pos hv, if_pos (by omega), Machine.decodeCmd_mod]

/-- Settles O4: the decoder evaluated on thirteen values. -/
theorem decodeWords : Obligations.DecodeWords :=
  ⟨rfl, rfl, rfl, rfl, rfl, rfl, rfl, rfl, rfl, rfl, rfl, rfl, rfl⟩

end Sys2Proof
end

section
/-! The bit reader and the output of U1 as a whole: `getbits` of any number of bits, `emit` wherever `RAW` stands, and the copy of a
back-reference (41_inflate.md R170, R171, R175, R176, R194). -/

namespace Sys2Proof.Machine

/-! ### Several bits -/

theorem skip_zero (s : State) : s.skip 0 = s := by
  have h : reg s.regs.ipos.toNat = s.regs.ipos := by simp [reg]
  simp only [State.skip, Nat.add_zero, h]

theorem skip_skip {s : State} {m n : Nat} (h : s.regs.ipos.toNat + m < 2 ^ 32) : (s.skip m).skip n = s.skip (m + n) := by
  simp only [State.skip, reg_toNat h, Nat.add_assoc]

theorem streamField_skip (s : State) (m : Nat) : ∀ n k, (s.skip m).streamField k n = s.streamField k n
  | 0, _ => rfl
  | n + 1, k => by rw [State.streamField, State.streamField, streamField_skip s m n]; rfl

/-- Where the stream stands after bits that are there. -/
theorem skip_ipos {s : State} {n : Nat} (h : s.StreamOk) (hn : s.BitsLeft n) :
    (s.skip n).regs.ipos.toNat = s.regs.ipos.toNat + n :=
  reg_toNat (lt_of_le_of_lt hn h.2)

theorem skip_streamOk {s : State} {n : Nat} (h : s.StreamOk) (hn : s.BitsLeft n) : (s.skip n).StreamOk :=
  ⟨(skip_ipos h hn).trans_le hn, h.2⟩

theorem skip_bitsLeft {s : State} {m n : Nat} (h : s.StreamOk) (hm : s.BitsLeft m) :
    (s.skip m).BitsLeft n ↔ s.BitsLeft (m + n) := by
  rw [State.BitsLeft, skip_ipos h hm, State.BitsLeft, Nat.add_assoc]
  rfl

/-- `getbits` of bits that are there: the field at `IPOS`, which moves past it (41_inflate.md R171). -/
theorem getbits_ok : ∀ {n : Nat} {s : State}, s.StreamOk → s.BitsLeft n →
    s.getbits n = .ok (s.streamField s.regs.ipos.toNat n) (s.skip n)
  | 0, s, _, _ => by rw [skip_zero]; rfl
  | n + 1, s, h, hn => by
    have h1 : s.BitsLeft 1 := by simp only [State.BitsLeft] at hn ⊢; omega
    have hr : (s.skip 1).BitsLeft n := (skip_bitsLeft h h1).2 (by rwa [Nat.add_comm])
    have hlt : s.regs.ipos.toNat + 1 < 2 ^ 32 := lt_of_le_of_lt h1 h.2
    rw [State.getbits, getbit_ok h1, Res_bind_ok, getbits_ok (skip_streamOk h h1) hr, Res_bind_ok, skip_skip hlt, skip_ipos h h1,
      streamField_skip, Nat.add_comm 1 n]
    rfl

/-- `getbits` that meets the end of the payload: every bit left is consumed (41_inflate.md R170). -/
theorem getbits_raised : ∀ {n : Nat} {s : State}, s.StreamOk → ¬ s.BitsLeft n →
    s.getbits n = .raised ((s.skip (8 * s.regs.inLen.toNat - s.regs.ipos.toNat)).raise .inputExhausted .inflate)
  | 0, s, h, hn => absurd h.1 hn
  | n + 1, s, h, hn => by
    by_cases h1 : s.BitsLeft 1
    · have hr : ¬ (s.skip 1).BitsLeft n := fun hr => hn (by rw [Nat.add_comm]; exact (skip_bitsLeft h h1).1 hr)
      have hlt : s.regs.ipos.toNat + 1 < 2 ^ 32 := lt_of_le_of_lt h1 h.2
      have hc : 1 + (8 * s.regs.inLen.toNat - (s.regs.ipos.toNat + 1)) = 8 * s.regs.inLen.toNat - s.regs.ipos.toNat := by
        simp only [State.BitsLeft] at h1
        omega
      rw [State.getbits, getbit_ok h1, Res_bind_ok, getbits_raised (skip_streamOk h h1) hr, Res_bind_raised, skip_skip hlt,
        skip_ipos h h1]
      exact congrArg (fun k => Res.raised ((s.skip k).raise .inputExhausted .inflate)) hc
    · have hz : 8 * s.regs.inLen.toNat - s.regs.ipos.toNat = 0 := by
        simp only [State.BitsLeft] at h1
        omega
      rw [State.getbits, getbit_raised h1, Res_bind_raised, hz, skip_zero]

/-! ### One byte of output -/

/-- `RAW_LEN`, `RAW_CAP` and `RAW_MAX` are in order (41_inflate.md R175, R176). -/
def State.OutputOk (s : State) : Prop :=
  s.params.rawMax ≤ 2 ^ 31 ∧ 1 ≤ s.regs.rawCap.toNat ∧ s.regs.rawLen.toNat ≤ s.regs.rawCap.toNat ∧
  s.regs.rawCap.toNat ≤ s.params.rawMax

theorem outputOk_of_inflateInv {s : State} (h : s.InflateInv) : s.OutputOk := by
  obtain ⟨⟨-, -, -, hmax, -⟩, -, -, -, h1, h2, h3, -⟩ := h
  exact ⟨hmax, h1, h2, h3⟩

/-- `b` appended with the capacity at `c`. -/
def State.emitted (s : State) (b : Byte) (c : Word) : State := State.appendRaw { s with regs := { s.regs with rawCap := c } } b

/-- Where there is room, `emit` appends its byte, whatever becomes of the capacity. -/
theorem emit_room {s : State} (b : Byte) (h : s.OutputOk) (hr : s.RoomFor 1) :
    ∃ c, s.emit b = .ok () (s.emitted b c) ∧ (s.emitted b c).OutputOk ∧
      (s.emitted b c).regs.rawLen.toNat = s.regs.rawLen.toNat + 1 := by
  obtain ⟨hmax, h1, h2, h3⟩ := h
  simp only [State.RoomFor] at hr
  have hl : (reg (s.regs.rawLen.toNat + 1)).toNat = s.regs.rawLen.toNat + 1 := reg_toNat (by omega)
  by_cases hc : s.regs.rawLen = s.regs.rawCap
  · have hn : s.regs.rawLen.toNat = s.regs.rawCap.toNat := congrArg BitVec.toNat hc
    have hg : (reg (min (2 * s.regs.rawCap.toNat) s.params.rawMax)).toNat = min (2 * s.regs.rawCap.toNat) s.params.rawMax :=
      reg_toNat (by omega)
    refine ⟨reg (min (2 * s.regs.rawCap.toNat) s.params.rawMax), emit_grows hc (by omega) b, ⟨hmax, ?_, ?_, ?_⟩, hl⟩
    · exact hg.symm ▸ (by omega)
    · exact hl.trans_le (hg.symm ▸ (by omega))
    · exact hg.trans_le (by show min _ s.params.rawMax ≤ s.params.rawMax; omega)
  · have hn : s.regs.rawLen.toNat ≠ s.regs.rawCap.toNat := fun he => hc (BitVec.eq_of_toNat_eq he)
    exact ⟨s.regs.rawCap, emit_below hc b, ⟨hmax, h1, hl.trans_le (by show _ ≤ s.regs.rawCap.toNat; omega), h3⟩, hl⟩

/-- Where there is no room, `emit` raises RAW_OVERFLOW (41_inflate.md R176). -/
theorem emit_full {s : State} (b : Byte) (h : s.OutputOk) (hr : ¬ s.RoomFor 1) :
    s.emit b = .raised (s.raise .rawOverflow .inflate) := by
  obtain ⟨-, -, h2, h3⟩ := h
  simp only [State.RoomFor] at hr
  exact emit_overflows (BitVec.eq_of_toNat_eq (by omega)) (by omega) b

theorem emitted_byteAt_same (s : State) (b : Byte) (c : Word) : (s.emitted b c).byteAt .raw s.regs.rawLen.toNat = b :=
  byteAt_writeBytes_in s .raw s.regs.rawLen.toNat [b] 0 (by simp)

theorem emitted_byteAt_other (s : State) (b : Byte) (c : Word) {k : Nat} (h : k ≠ s.regs.rawLen.toNat) :
    (s.emitted b c).byteAt .raw k = s.byteAt .raw k :=
  byteAt_writeBytes_out s .raw s.regs.rawLen.toNat [b] k (by rw [List.length_singleton]; omega)

/-! ### The copy of a back-reference -/

/-- `t` is `s` after `n` bytes of a copy from `distance` back: each is equal to the one `distance` before it in the result, and nothing
else of `RAW` has changed, nor of the machine but for `RAW_LEN`, `RAW_CAP` and the count (41_inflate.md R194). -/
structure State.Copied (s t : State) (distance n : Nat) : Prop where
  state : ∃ l c m u, t = { s with
    regs := { s.regs with rawLen := l, rawCap := c }, buf := { s.buf with raw := m }, u1 := { s.u1 with matchLen := u } }
  length : t.regs.rawLen.toNat = s.regs.rawLen.toNat + n
  copied : ∀ k, k < n → t.byteAt .raw (s.regs.rawLen.toNat + k) = t.byteAt .raw (s.regs.rawLen.toNat + k - distance)
  kept : ∀ k, k < s.regs.rawLen.toNat ∨ s.regs.rawLen.toNat + n ≤ k → t.byteAt .raw k = s.byteAt .raw k

theorem copied_zero (s : State) (distance : Nat) : s.Copied s distance 0 :=
  ⟨⟨_, _, _, _, rfl⟩, rfl, fun _ hk => absurd hk (Nat.not_lt_zero _), fun _ _ => rfl⟩

/-- The state after one byte of a copy of `n + 1`. -/
def State.copyOne (s : State) (distance n : Nat) (c : Word) : State :=
  { s.emitted (s.byteAt .raw (s.regs.rawLen.toNat - distance)) c with u1 := { s.u1 with matchLen := n } }

/-- One byte more in front of a copy. -/
theorem copied_succ {s t : State} {distance n r : Nat} {c : Word} (h1 : 1 ≤ distance) (hd : distance ≤ s.regs.rawLen.toNat)
    (hl : (s.copyOne distance r c).regs.rawLen.toNat = s.regs.rawLen.toNat + 1) (h : (s.copyOne distance r c).Copied t distance n) :
    s.Copied t distance (n + 1) := by
  obtain ⟨⟨l, c', m, u, ht⟩, hlen, hcopied, hkept⟩ := h
  have hold : ∀ k, k ≠ s.regs.rawLen.toNat → (s.copyOne distance r c).byteAt .raw k = s.byteAt .raw k :=
    fun k hk => emitted_byteAt_other s _ c hk
  have hnew : (s.copyOne distance r c).byteAt .raw s.regs.rawLen.toNat = s.byteAt .raw (s.regs.rawLen.toNat - distance) :=
    emitted_byteAt_same s _ c
  rw [hl] at hlen hcopied hkept
  refine ⟨⟨l, c', m, u, ht⟩, by omega, fun k hk => ?_, fun k hk => ?_⟩
  · cases k with
    | zero => rw [Nat.add_zero, hkept _ (by omega), hkept _ (by omega), hnew, hold _ (by omega)]
    | succ k =>
      rw [show s.regs.rawLen.toNat + (k + 1) = s.regs.rawLen.toNat + 1 + k by omega]
      exact hcopied k (by omega)
  · rw [hkept k (by omega), hold k (by omega)]

/-- Where there is room for it, a copy begins with one byte, and goes on. -/
theorem copy_succ {s : State} (distance n : Nat) (h : s.OutputOk) (hr : s.RoomFor 1) :
    ∃ c, s.copy distance (n + 1) = (s.copyOne distance n c).copy distance n ∧ (s.copyOne distance n c).OutputOk ∧
      (s.copyOne distance n c).regs.rawLen.toNat = s.regs.rawLen.toNat + 1 := by
  obtain ⟨c, he, ho, hl⟩ := emit_room (s.byteAt .raw (s.regs.rawLen.toNat - distance)) h hr
  exact ⟨c, by rw [State.copy, he]; rfl, ho, hl⟩

/-- A copy that has room for all its bytes (41_inflate.md R194). -/
theorem copy_ok {distance : Nat} (h1 : 1 ≤ distance) : ∀ {n : Nat} {s : State}, s.OutputOk → s.RoomFor n →
    distance ≤ s.regs.rawLen.toNat → s.u1.matchLen = n →
    ∃ t, s.copy distance n = .ok () t ∧ s.Copied t distance n ∧ t.u1 = { s.u1 with matchLen := 0 }
  | 0, s, _, _, _, hm => ⟨s, rfl, copied_zero s distance, by rw [← hm]⟩
  | n + 1, s, h, hr, hd, _ => by
    simp only [State.RoomFor] at hr
    obtain ⟨c, he, ho, hl⟩ := copy_succ distance n h (by simp only [State.RoomFor]; omega)
    obtain ⟨t, ht, hc, hu⟩ := copy_ok h1 ho (n := n) (by show _ + n ≤ s.params.rawMax; omega) (by omega) rfl
    exact ⟨t, he.trans ht, copied_succ h1 hd hl hc, hu⟩

/-- A copy that has not: it stops in RAW_OVERFLOW when `RAW` is full (41_inflate.md R176, R194; log entry 22). -/
theorem copy_overflow {distance : Nat} (h1 : 1 ≤ distance) : ∀ {n : Nat} {s : State}, s.OutputOk → ¬ s.RoomFor n →
    distance ≤ s.regs.rawLen.toNat →
    ∃ t, s.copy distance n = .raised (t.raise .rawOverflow .inflate) ∧
      s.Copied t distance (s.params.rawMax - s.regs.rawLen.toNat)
  | 0, s, h, hr, _ => by
    obtain ⟨-, -, h2, h3⟩ := h
    exact absurd (h2.trans h3) hr
  | n + 1, s, h, hr, hd => by
    by_cases hr1 : s.RoomFor 1
    · obtain ⟨c, he, ho, hl⟩ := copy_succ distance n h hr1
      simp only [State.RoomFor] at hr hr1
      obtain ⟨t, ht, hc⟩ := copy_overflow h1 ho (n := n) (by show ¬ (_ + n ≤ s.params.rawMax); omega) (by omega)
      refine ⟨t, he.trans ht, ?_⟩
      have hn : s.params.rawMax - s.regs.rawLen.toNat = s.params.rawMax - (s.regs.rawLen.toNat + 1) + 1 := by omega
      rw [hn, ← hl]
      exact copied_succ h1 hd hl hc
    · refine ⟨s, by rw [State.copy, emit_full _ h hr1]; rfl, ?_⟩
      simp only [State.RoomFor] at hr1
      rw [show s.params.rawMax - s.regs.rawLen.toNat = 0 by omega]
      exact copied_zero s distance

end Sys2Proof.Machine
end

section
/-! The symbols of a MATCH: each row of the length and distance tables (30_encoding.md R108, R109; 41_inflate.md R198). -/

namespace Sys2Proof.Machine

/-! ### Lengths -/

/-- Row `k` of the length table is symbol `257 + k` of the alphabet, with its base and extra bits (30_encoding.md R108). -/
theorem lengthSymbols_row {k : Nat} {i : Instr} {base extra : Nat} (h : lengthSymbols[k]? = some (i, base, extra)) :
    decode .ll (257 + k) = .ok i ∧ (∀ s, exec i s = s.lengthPart (257 + k)) ∧ lenBase (257 + k) = base ∧
    lenExtra (257 + k) = extra ∧ 3 ≤ base ∧ base + 2 ^ extra ≤ 259 := by
  have hk : k < 29 := (List.getElem?_eq_some_iff.1 h).1
  interval_cases k <;> cases h <;> refine ⟨decode_encode rfl rfl, fun _ => rfl, rfl, rfl, ?_, ?_⟩ <;> decide

/-- The length of a MATCH whose extra bits are there (41_inflate.md R198). -/
theorem lengthPart_ok {s : State} {sym : Nat} (h : s.StreamOk) (hb : s.BitsLeft (lenExtra sym)) :
    s.lengthPart sym = .next { s.skip (lenExtra sym) with
      u1 := { s.u1 with matchLen := lenBase sym + s.streamField s.regs.ipos.toNat (lenExtra sym) }, phase := .busy .dSymbol } := by
  rw [State.lengthPart, getbits_ok h hb, Res_bind_ok, Res_outcome_ok]
  simp [State.await, State.setPhase, State.skip]

theorem lengthPart_raised {s : State} {sym : Nat} (h : s.StreamOk) (hb : ¬ s.BitsLeft (lenExtra sym)) :
    s.lengthPart sym =
      .next ((s.skip (8 * s.regs.inLen.toNat - s.regs.ipos.toNat)).raise .inputExhausted .inflate) := by
  rw [State.lengthPart, getbits_raised h hb]
  rfl

/-- Settles O26, row by row of the length table. -/
theorem lengthSymbols_hold : Obligations.LengthSymbols := by
  intro k i base extra h
  obtain ⟨hd, he, rfl, rfl, h3, h259⟩ := lengthSymbols_row h
  refine ⟨hd, h3, h259, fun s hs hb => ?_, fun s hs hb => ?_⟩
  · rw [he, lengthPart_ok hs hb]
  · exact ⟨_, (he s).trans (lengthPart_raised hs hb), rfl, rfl⟩

/-! ### Distances -/

/-- Row `d` of the distance table is symbol `d` of the alphabet, with its base and extra bits (30_encoding.md R109). -/
theorem distanceSymbols_row {d : Nat} {i : Instr} {base extra : Nat} (h : distanceSymbols[d]? = some (i, base, extra)) :
    decode .d d = .ok i ∧ (∀ s, exec i s = s.distancePart d) ∧ distBase d = base ∧ distExtra d = extra ∧ 1 ≤ base := by
  have hd : d < 30 := (List.getElem?_eq_some_iff.1 h).1
  interval_cases d <;> cases h <;> exact ⟨decode_encode rfl rfl, fun _ => rfl, rfl, rfl, by decide⟩

/-- The distance that stands in the stream for symbol `d`. -/
def State.distanceAt (s : State) (d : Nat) : Nat := distBase d + s.streamField s.regs.ipos.toNat (distExtra d)

/-- The distance latched, its extra bits read (10_state.md R40). -/
def State.latchDistance (s : State) (d : Nat) : State :=
  { s.skip (distExtra d) with u1 := { s.u1 with matchDist := s.distanceAt d } }

theorem distancePart_exhausted {s : State} {d : Nat} (h : s.StreamOk) (hb : ¬ s.BitsLeft (distExtra d)) :
    s.distancePart d =
      .next ((s.skip (8 * s.regs.inLen.toNat - s.regs.ipos.toNat)).raise .inputExhausted .inflate) := by
  rw [State.distancePart, getbits_raised h hb]
  rfl

/-- A distance beyond the output raises before any byte is put out (41_inflate.md R198). -/
theorem distancePart_tooFar {s : State} {d : Nat} (h : s.StreamOk) (hb : s.BitsLeft (distExtra d))
    (hd : s.regs.rawLen.toNat < s.distanceAt d) :
    s.distancePart d = .next ((s.latchDistance d).raise .distanceTooFar .inflate) := by
  rw [State.distancePart, getbits_ok h hb]
  exact congrArg Res.outcome (if_pos hd)

/-- A distance within the output is copied from. -/
theorem distancePart_copies {s : State} {d : Nat} (h : s.StreamOk) (hb : s.BitsLeft (distExtra d))
    (hd : s.distanceAt d ≤ s.regs.rawLen.toNat) :
    s.distancePart d = (((s.latchDistance d).copy (s.distanceAt d) s.u1.matchLen).bind fun _ s =>
      .ok () (s.await .llSymbol)).outcome := by
  rw [State.distancePart, getbits_ok h hb]
  exact congrArg Res.outcome (if_neg (Nat.not_lt.2 hd))

/-- A copy that runs out of room ends in RAW_OVERFLOW with `RAW` full (41_inflate.md R176; log entry 22). -/
theorem distancePart_overflow {s : State} {d : Nat} (ho : s.OutputOk) (h : s.StreamOk) (hb : s.BitsLeft (distExtra d))
    (h1 : 1 ≤ s.distanceAt d) (hd : s.distanceAt d ≤ s.regs.rawLen.toNat) (hr : ¬ s.RoomFor s.u1.matchLen) :
    ∃ t, s.distancePart d = .next (t.raise .rawOverflow .inflate) ∧
      (s.latchDistance d).Copied t (s.distanceAt d) (s.params.rawMax - s.regs.rawLen.toNat) := by
  obtain ⟨t, ht, hc⟩ := copy_overflow (s := s.latchDistance d) h1 ho hr hd
  exact ⟨t, by rw [distancePart_copies h hb hd, ht]; rfl, hc⟩

/-- A copy that has room is made, and the next symbol awaited (41_inflate.md R198). -/
theorem distancePart_ok {s : State} {d : Nat} (ho : s.OutputOk) (h : s.StreamOk) (hb : s.BitsLeft (distExtra d))
    (h1 : 1 ≤ s.distanceAt d) (hd : s.distanceAt d ≤ s.regs.rawLen.toNat) (hr : s.RoomFor s.u1.matchLen) :
    ∃ t, s.distancePart d = .next (t.await .llSymbol) ∧
      (s.latchDistance d).Copied t (s.distanceAt d) s.u1.matchLen ∧
      t.u1 = { s.u1 with matchLen := 0, matchDist := s.distanceAt d } := by
  obtain ⟨t, ht, hc, hu⟩ := copy_ok (s := s.latchDistance d) h1 ho hr hd rfl
  exact ⟨t, by rw [distancePart_copies h hb hd, ht]; rfl, hc, hu⟩

/-- Settles O27, row by row of the distance table, by the four ways a distance symbol ends. -/
theorem distanceSymbolsCopy : Obligations.DistanceSymbolsCopy := by
  intro d i base extra h
  obtain ⟨hdec, he, rfl, rfl, h1⟩ := distanceSymbols_row h
  refine ⟨hdec, fun s hi hs => ⟨fun hb => ?_, fun hb hd hr => ?_, fun hb hd hr => ?_, fun hb hd => ?_⟩⟩
  · refine ⟨_, (he s).trans (distancePart_exhausted hs hb), ?_, rfl, rfl, rfl, rfl, rfl, rfl, rfl⟩
    and_intros <;> rfl
  · have ho := outputOk_of_inflateInv hi
    obtain ⟨t, ht, ⟨l, c, m, u, rfl⟩, hlen, hcopied, hkept⟩ := distancePart_overflow ho hs hb (Nat.le_add_right_of_le h1) hd hr
    obtain ⟨-, -, h2, h3⟩ := ho
    have hmax : s.regs.rawLen.toNat + (s.params.rawMax - s.regs.rawLen.toNat) = s.params.rawMax := by omega
    refine ⟨_, (he s).trans ht, by and_intros <;> rfl, rfl, rfl, rfl, hlen.trans hmax, fun k hk hk' => ?_, fun k hk => ?_⟩
    · obtain ⟨j, rfl⟩ := Nat.exists_eq_add_of_le hk
      exact hcopied j (by omega)
    · exact hkept k (hk.imp_right hmax.trans_le)
  · obtain ⟨t, ht, ⟨⟨l, c, m, u, rfl⟩, hlen, hcopied, hkept⟩, hu⟩ :=
      distancePart_ok (outputOk_of_inflateInv hi) hs hb (Nat.le_add_right_of_le h1) hd hr
    exact ⟨_, (he s).trans ht, by and_intros <;> rfl, rfl, rfl, rfl, rfl, skip_ipos hs hb, hlen, hu, hcopied, hkept⟩
  · rw [he, distancePart_tooFar hs hb hd]
    rfl

end Sys2Proof.Machine
end

section
/-! No step refuses: every instruction has a next state, every value a unit reads is an instruction of its format, and what is left to
stop a step is an access of the host beyond a buffer's capacity (30_encoding.md R118, R119; 20_memory.md R70, R82). -/

namespace Sys2Proof.Machine

/-! ### Every instruction has a next state -/

theorem command_next (s : State) (adm : Option (FaultCode × UnitId)) (run : Unit → State) : ∃ t, s.command adm run = .next t := by
  obtain h | ⟨-, f, u, -, h⟩ | ⟨-, -, h⟩ := command_cases s adm run
  · exact ⟨_, h⟩
  · exact ⟨_, h⟩
  · exact ⟨_, h⟩

theorem execClear_next (s : State) : ∃ t, execClear s = .next t := by
  unfold execClear
  split
  · exact ⟨_, rfl⟩
  · exact ⟨_, rfl⟩

theorem execDynMetaLengths_next (length : BitVec 3) (s : State) : ∃ t, execDynMetaLengths length s = .next t := by
  unfold execDynMetaLengths
  dsimp only
  split_ifs
  · exact ⟨_, rfl⟩
  · exact ⟨_, rfl⟩
  · exact ⟨_, rfl⟩

theorem execCl16_next (s : State) : ∃ t, execCl16 s = .next t := by
  unfold execCl16
  split
  · exact ⟨_, rfl⟩
  · exact Res_outcome_next _

theorem lengthPart_next (s : State) (sym : Nat) : ∃ t, s.lengthPart sym = .next t := Res_outcome_next _

theorem distancePart_next (s : State) (d : Nat) : ∃ t, s.distancePart d = .next t := Res_outcome_next _

/-- The meaning of an instruction is a next state, a fault of CORE being one (60_exceptions.md R390). -/
theorem exec_next (i : Instr) (s : State) : ∃ t, exec i s = .next t := by
  cases i with
  | nop | inflate | recon | canvasInit | compose | hashEnc | hashDec | hashAvg | hashAspect | cmdReserved6To7 _
  | cmdReserved12To15 _ =>
    rw [exec]
    exact command_next _ _ _
  | clear => exact execClear_next s
  | dynMetaLengths length => exact execDynMetaLengths_next length s
  | cl16 => exact execCl16_next s
  | frame _ | decodeStill _ | decodeAnim _ | hdr _ _ | fixed | dyn | btypeIllegal | dynCounts _ _ _ | dynCodeLengths | cln _ | eob
  | llIllegal286To287 _ | dIllegal30To31 _ | filterNone | filterSub | filterUp | filterAverage | filterPaeth | filterIllegal _
  | blendSource | blendOver | blendReserved2To3 _ | disposeNone | disposeClearToBackground | disposeRestorePrevious
  | disposeReserved3 => exact ⟨_, rfl⟩
  | stored | cl17 | cl18 | lit _ => exact Res_outcome_next _
  | dist0 | dist1 | dist2 | dist3 | dist4 | dist5 | dist6 | dist7 | dist8 | dist9 | dist10 | dist11 | dist12 | dist13 | dist14
  | dist15 | dist16 | dist17 | dist18 | dist19 | dist20 | dist21 | dist22 | dist23 | dist24 | dist25 | dist26 | dist27 | dist28
  | dist29 =>
    rw [exec]
    exact distancePart_next s _
  | _ =>
    rw [exec]
    exact lengthPart_next s _

/-! ### Every value read is an instruction -/

theorem getbit_lt (s : State) : s.getbit.Ends (fun b _ => b < 2) (fun _ => True) := by
  obtain ⟨-, h⟩ | ⟨-, h⟩ := getbit_cases s <;> rw [h]
  · exact .ok (streamBit_lt s _)
  · exact .raised trivial

/-- `n` bits are a number below `2^n` (20_memory.md R73). -/
theorem getbits_lt : ∀ (n : Nat) (s : State), (s.getbits n).Ends (fun v _ => v < 2 ^ n) (fun _ => True)
  | 0, _ => .ok Nat.one_pos
  | n + 1, s => (getbit_lt s).bind fun b s hb => (getbits_lt n s).bind fun v _ hv => .ok (by rw [Nat.pow_succ]; omega)

/-- A symbol that is decoded is one of its alphabet (41_inflate.md R178). -/
theorem decodeLoop_lt (t : List Nat) : ∀ (fuel len code : Nat) (s : State),
    (State.decodeLoop t fuel len code s).Ends (fun v _ => v < t.length) (fun _ => True)
  | 0, _, _, _ => .raised trivial
  | fuel + 1, len, code, s => (getbit_lt s).bind fun b s _ => by
    cases h : symbolOf t (len + 1) (code * 2 + b) with
    | some sym => exact .ok (List.getElem?_eq_some_iff.1 ((Laws.symbolOf_eq_some ..).1 h).1).1
    | none => exact decodeLoop_lt t fuel (len + 1) (code * 2 + b) s

theorem decodeSymbol_lt (s : State) (t : List Nat) : (s.decodeSymbol t).Ends (fun v _ => v < t.length) (fun _ => True) :=
  decodeLoop_lt t _ 0 0 s

/-- Every symbol below 19 is a meta symbol (30_encoding.md R107). -/
theorem decode_cl_total {w : Nat} (h : w < 19) : ∃ i, decode .cl w = .ok i := by
  interval_cases w <;> exact ⟨_, rfl⟩

/-- Every symbol below 288 is a literal/length symbol (30_encoding.md R104). -/
theorem decode_ll_total {w : Nat} (h : w < 288) : ∃ i, decode .ll w = .ok i := by
  by_cases hw : w < 256
  · exact ⟨_, if_pos hw⟩
  · obtain ⟨k, rfl⟩ := Nat.exists_eq_add_of_le (Nat.le_of_not_lt hw)
    have hk : k < 32 := by omega
    interval_cases k <;> exact ⟨_, rfl⟩

/-- Every symbol below 32 is a distance symbol (30_encoding.md R104). -/
theorem decode_d_total {w : Nat} (h : w < 32) : ∃ i, decode .d w = .ok i := by
  interval_cases w <;> exact ⟨_, rfl⟩

/-- Whatever a unit reads in a state whose tables have their sizes is an instruction of its format (30_encoding.md R118, R119). -/
theorem fetch_decodes {s : State} (h : s.InflateInv) (a : Await) :
    (s.fetch a).Ends (fun v _ => ∃ i, decode v.1 v.2 = .ok i) (fun _ => True) := by
  obtain ⟨-, hcl, hll, hd, -⟩ := h
  cases a with
  | header =>
    exact (getbit_lt s).bind fun b _ hb => (getbits_lt 2 _).bind fun t _ ht => .ok ⟨_, if_pos (by omega)⟩
  | body =>
    have hf := s.u1.bfinal.isLt
    have ht := s.u1.btype.isLt
    exact .ok ⟨_, if_pos (by omega)⟩
  | counts =>
    exact (getbits_lt 5 s).bind fun l _ hl => (getbits_lt 5 _).bind fun d _ hd => (getbits_lt 4 _).bind fun c _ hc =>
      .ok ⟨_, if_pos (by omega)⟩
  | metaLength => exact (getbits_lt 3 s).bind fun v _ hv => .ok ⟨_, if_pos hv⟩
  | codeLengths => exact .ok ⟨_, rfl⟩
  | clSymbol =>
    exact (decodeSymbol_lt s s.clTable).bind fun v _ hv => .ok (decode_cl_total (by rwa [State.clTable, List.length_map, hcl] at hv))
  | llSymbol =>
    exact (decodeSymbol_lt s s.llTable).bind fun v _ hv => .ok (decode_ll_total (by rwa [State.llTable, List.length_map, hll] at hv))
  | dSymbol =>
    exact (decodeSymbol_lt s s.dTable).bind fun v _ hv => .ok (decode_d_total (by rwa [State.dTable, List.length_map, hd] at hv))
  | scanline => exact .ok ⟨_, if_pos (BitVec.isLt _)⟩
  | blend | dispose => exact .ok ⟨_, if_pos (BitVec.isLt _)⟩

/-! ### A unit never stops -/

theorem piece_next {s : State} (h : s.InflateInv) (a : Await) : ∃ t, s.piece a = .next t := by
  have hd := fetch_decodes h a
  obtain ⟨f, w, s', hs, hp⟩ | ⟨s', -, hp⟩ := piece_cases s a
  · rw [hs] at hd
    obtain ⟨⟨i, hi⟩⟩ := hd
    exact hp ▸ run_of_decode hi s' ▸ exec_next i s'
  · exact ⟨s', hp⟩

theorem element_next : ∀ (n : Nat) {s : State} {a : Await}, s.phase = .busy a → s.InflateInv → ∃ t, s.element a n = .next t
  | 0, _, a, _, h => piece_next h a
  | n + 1, s, a, ha, h => by
    obtain ⟨t, ht⟩ := piece_next h a
    cases hr : t.rest? with
    | none => exact ⟨t, element_ends ht hr _⟩
    | some b => exact element_goes_on ht hr n ▸ element_next n (phase_of_rest? hr) (inflateInv_piece ha h ht)

theorem proceed_next {s : State} (h : s.InflateInv) : ∃ t, s.proceed = .next t := by
  unfold State.proceed
  split
  case h_1 a ha => exact element_next 31 ha h
  all_goals exact ⟨_, rfl⟩

/-! ### What stops the host -/

/-- An access of the host that names no byte: outside BUSY, beyond the capacity of its buffer (log entry 15). -/
def State.Beyond (s : State) (op : HostOp) : Prop :=
  s.phase.isBusy = false ∧
    ((∃ b i bytes, op = .writeBuf b i bytes ∧ s.params.capacity b.buf < i + bytes.length) ∨
      (∃ b i n, op = .readBuf b i n ∧ s.params.capacity b.buf < i + n) ∨
      (op = .readOut ∧ s.params.pixMax < (s.hostReadReg 0x17).1.toNat))

/-- An action ends in a next state, or it is an access beyond a capacity and the model stops. -/
def State.EndsOrStops (s : State) (op : HostOp) (r : Host.Outcome State Fault Refusal) : Prop :=
  (∃ t, r = .next t) ∨ (r = .fault .noSuchByte ∧ s.Beyond op)

theorem writeReg_next (s : State) (n : Nat) (v : Word) : ∃ t, s.hostWriteReg n v = .next t := by
  by_cases hn : n = 0
  · subst hn
    exact hostWriteReg_cmd s v ▸ exec_next _ s
  · exact ⟨_, if_neg hn⟩

theorem writeBuf_endsOrStops (s : State) (b : HostWBuf) (i : Nat) (bytes : List Byte) :
    s.EndsOrStops (.writeBuf b i bytes) (s.doWriteBuf b i bytes) := by
  cases hb : s.phase.isBusy with
  | true => exact .inl ⟨s, if_pos hb⟩
  | false =>
    obtain h | h := le_or_gt (i + bytes.length) (s.params.capacity b.buf)
    · obtain ⟨t, ht, -⟩ := doWriteBuf_stores hb h
      exact .inl ⟨t, ht⟩
    · exact .inr ⟨doWriteBuf_beyond hb h, hb, .inl ⟨b, i, bytes, rfl, h⟩⟩

/-- BUSY answers every read, and outside it a bound holds or is passed (20_memory.md R82). -/
theorem busy_or_inside (s : State) (n m : Nat) : (s.phase.isBusy = true ∨ n ≤ m) ∨ (s.phase.isBusy = false ∧ m < n) := by
  cases s.phase.isBusy with
  | true => exact .inl (.inl rfl)
  | false => exact (le_or_gt n m).imp .inr fun h => ⟨rfl, h⟩

theorem readBuf_endsOrStops (s : State) (b : HostRBuf) (i n : Nat) : s.EndsOrStops (.readBuf b i n) (s.doReadBuf b i n) := by
  obtain h | ⟨hb, h⟩ := busy_or_inside s (i + n) (s.params.capacity b.buf)
  · exact .inl ⟨_, doReadBuf_reads h⟩
  · exact .inr ⟨doReadBuf_beyond hb h, hb, .inr (.inl ⟨b, i, n, rfl, h⟩)⟩

theorem readOut_endsOrStops (s : State) : s.EndsOrStops .readOut s.doReadOut := by
  obtain ⟨hin, hbeyond⟩ := doReadOut_cases (q := s) rfl rfl
  obtain h | ⟨hb, h⟩ := busy_or_inside s (s.hostReadReg 0x17).1.toNat s.params.pixMax
  · exact .inl ⟨_, hin h⟩
  · exact .inr ⟨hbeyond hb h, hb, .inr (.inr ⟨rfl, h⟩)⟩

/-- Every action of the host ends in a next state, or is an access beyond a capacity. -/
theorem act_endsOrStops {s : State} (h : s.InflateInv) (op : HostOp) : s.EndsOrStops op (s.act op) := by
  cases op with
  | writeReg n v => exact .inl (writeReg_next s n v)
  | writeBuf b i bytes => exact writeBuf_endsOrStops s b i bytes
  | readBuf b i n => exact readBuf_endsOrStops s b i n
  | readOut => exact readOut_endsOrStops s
  | tick => exact .inl (proceed_next h)
  | readReg _ | reset | stopIfFault _ | frame _ | decodeStill _ | decodeAnim _ => exact .inl ⟨_, rfl⟩

/-- What a read of a register returns does not depend on the queue. -/
theorem hostReadReg_queue (s : State) (l : List HostItem) (n : Nat) :
    (State.hostReadReg { s with script := l } n).1 = (s.hostReadReg n).1 := by
  simp only [State.hostReadReg, apply_ite Prod.fst]
  rfl

/-- A step ends in a next state, or the host's next action is an access beyond a capacity. -/
theorem step_next_or_stops {s : State} (h : s.InflateInv) :
    (∃ t, step s = .next t) ∨
      (step s = .fault .noSuchByte ∧ ∃ item rest, s.script = item :: rest ∧ s.Beyond item.op) := by
  unfold step State.advance
  split
  case h_1 => exact .inl (proceed_next h)
  case h_2 item rest hs =>
    split
    · obtain hn | ⟨hf, hb, hop⟩ := act_endsOrStops (s := { s with script := rest }) h item.op
      · exact .inl hn
      · rw [hostReadReg_queue] at hop
        exact .inr ⟨hf, item, rest, hs, hb, hop⟩
    · exact .inl (proceed_next h)

/-- Settles O59: a step that has no next state is an access of the host beyond a capacity, which is a stop and no refusal. -/
theorem stepNeverRefuses : Obligations.StepNeverRefuses := by
  intro s h
  obtain ⟨t, ht⟩ | ⟨hf, item, rest, hs, hb, hop⟩ := step_next_or_stops h
  · exact ⟨fun r hr => (by cases ht.symm.trans hr), fun r hr => (by cases ht.symm.trans hr)⟩
  · exact ⟨fun r hr => (by cases hf.symm.trans hr), fun r _ => ⟨hb, item, rest, hs, hop⟩⟩

end Sys2Proof.Machine
end

section
/-! The header and the length of a spectral hash, whatever the number system (30_encoding.md R115, R117; 45_dct_hash.md R320 to R335,
R345). -/

namespace Sys2Proof.Machine

/-! ### The two header words -/

/-- `header24` of the fields of a header (30_encoding.md R115). -/
def HashHeader.word24 (hd : HashHeader) : Nat :=
  hd.lDc + 2 ^ 6 * hd.pDc + 2 ^ 12 * hd.qDc + 2 ^ 18 * hd.lScale + 2 ^ 23 * hd.hasAlpha.toNat

/-- `header16` of the fields of a header (30_encoding.md R115). -/
def HashHeader.word16 (hd : HashHeader) : Nat :=
  hd.grid + 2 ^ 3 * hd.pScale + 2 ^ 9 * hd.qScale + 2 ^ 15 * hd.isLandscape.toNat

/-- Every field is inside its width (30_encoding.md R115). -/
abbrev HashHeader.Fits (hd : HashHeader) : Prop :=
  hd.lDc < 2 ^ 6 ∧ hd.pDc < 2 ^ 6 ∧ hd.qDc < 2 ^ 6 ∧ hd.lScale < 2 ^ 5 ∧ hd.grid < 2 ^ 3 ∧ hd.pScale < 2 ^ 6 ∧ hd.qScale < 2 ^ 6

/-- The fields of a header are read back from its words. -/
theorem hashHeader_words {hd : HashHeader} (h : hd.Fits) : hashHeader hd.word24 hd.word16 = hd := by
  obtain ⟨l, p, q, ls, a, g, ps, qs, o⟩ := hd
  obtain ⟨hl, hp, hq, hls, hg, hps, hqs⟩ := h
  have ha := Bool.toNat_le a
  have ho := Bool.toNat_le o
  simp only at hl hp hq hls hg hps hqs
  simp only [hashHeader, HashHeader.word24, HashHeader.word16, HashHeader.mk.injEq]
  refine ⟨by omega, by omega, by omega, by omega, ?_, by omega, by omega, by omega, ?_⟩
  · rw [show (l + 2 ^ 6 * p + 2 ^ 12 * q + 2 ^ 18 * ls + 2 ^ 23 * a.toNat) / 2 ^ 23 % 2 = a.toNat by omega]
    cases a <;> rfl
  · rw [show (g + 2 ^ 3 * ps + 2 ^ 9 * qs + 2 ^ 15 * o.toNat) / 2 ^ 15 % 2 = o.toNat by omega]
    cases o <;> rfl

theorem word24_lt {hd : HashHeader} (h : hd.Fits) : hd.word24 < 2 ^ 24 := by
  obtain ⟨hl, hp, hq, hls, -⟩ := h
  have ha := Bool.toNat_le hd.hasAlpha
  unfold HashHeader.word24
  omega

theorem word16_lt {hd : HashHeader} (h : hd.Fits) : hd.word16 < 2 ^ 16 := by
  obtain ⟨-, -, -, -, hg, hps, hqs⟩ := h
  have ho := Bool.toNat_le hd.isLandscape
  unfold HashHeader.word16
  omega

/-- Bytes that begin with the two words of a header have that header (20_memory.md R76). -/
theorem headerOf_words {hd : HashHeader} (h : hd.Fits) (rest : List Byte) :
    headerOf (leBytes hd.word24 3 ++ leBytes hd.word16 2 ++ rest) = hd := by
  have h24 := word24_lt h
  have h16 := word16_lt h
  have e24 : hd.word24 % 256 + 256 * (hd.word24 / 256 % 256) + 65536 * (hd.word24 / 256 / 256 % 256) = hd.word24 := by omega
  have e16 : hd.word16 % 256 + 256 * (hd.word16 / 256 % 256) = hd.word16 := by omega
  conv_rhs => rw [← hashHeader_words h, ← e24, ← e16]
  simp [headerOf, leBytes]

/-! ### The parts of a hash -/

/-- `lx` of an image (45_dct_hash.md R324). -/
def imageLx (w h : Nat) (px : List Pixel) : Nat := gridCount (gridCap (hasAlphaOf w h px)) w (max w h)

/-- `ly` of an image (45_dct_hash.md R324). -/
def imageLy (w h : Nat) (px : List Pixel) : Nat := gridCount (gridCap (hasAlphaOf w h px)) h (max w h)

section

variable {N : Type} (ns : NumberSystem N) (w h : Nat) (px : List Pixel)

/-- The luminance channel on the image's grid, and the others on theirs (45_dct_hash.md R329). -/
def lumaCoeffs : Coeffs N := coeffs ns w h (max 3 (imageLx w h px)) (max 3 (imageLy w h px)) (channelsOf ns px).l

/-- The first chroma channel. -/
def pCoeffs : Coeffs N := coeffs ns w h 3 3 (channelsOf ns px).p

/-- The second chroma channel. -/
def qCoeffs : Coeffs N := coeffs ns w h 3 3 (channelsOf ns px).q

/-- The alpha channel. -/
def alphaCoeffs : Coeffs N := coeffs ns w h 5 5 (channelsOf ns px).a

/-- The header of an image's hash (45_dct_hash.md R332, R333). -/
def encodedHeader : HashHeader where
  lDc := fieldOf ns 6 (lumaCoeffs ns w h px).dc
  pDc := offsetFieldOf ns (pCoeffs ns w h px).dc
  qDc := offsetFieldOf ns (qCoeffs ns w h px).dc
  lScale := fieldOf ns 5 (lumaCoeffs ns w h px).scale
  hasAlpha := hasAlphaOf w h px
  grid := if decide (h < w) then imageLy w h px else imageLx w h px
  pScale := fieldOf ns 6 (pCoeffs ns w h px).scale
  qScale := fieldOf ns 6 (qCoeffs ns w h px).scale
  isLandscape := decide (h < w)

/-- The alpha byte, if the image has alpha (45_dct_hash.md R334). -/
def alphaBytes : List Byte :=
  if hasAlphaOf w h px then
    [BitVec.ofNat 8 (fieldOf ns 4 (alphaCoeffs ns w h px).dc + 16 * fieldOf ns 4 (alphaCoeffs ns w h px).scale)]
  else []

/-- The AC nibbles of every channel (45_dct_hash.md R335). -/
def imageNibbles : List Nat :=
  (lumaCoeffs ns w h px).nibbles ns ++ (pCoeffs ns w h px).nibbles ns ++ (qCoeffs ns w h px).nibbles ns ++
    (if hasAlphaOf w h px then (alphaCoeffs ns w h px).nibbles ns else [])

/-- A hash is its header words, its alpha byte and its nibbles (45_dct_hash.md R320). -/
theorem hashEncode_eq : hashEncode ns w h px =
    leBytes (encodedHeader ns w h px).word24 3 ++ leBytes (encodedHeader ns w h px).word16 2 ++
      (alphaBytes ns w h px ++ packNibbles (imageNibbles ns w h px)) :=
  List.append_assoc ..

end

/-! ### Its header -/

theorem fieldOf_lt {N : Type} (ns : NumberSystem N) (bits : Nat) (v : N) : fieldOf ns bits v < 2 ^ bits := BitVec.isLt _

theorem offsetFieldOf_lt {N : Type} (ns : NumberSystem N) (v : N) : offsetFieldOf ns v < 2 ^ 6 := BitVec.isLt _

theorem gridCap_bounds (a : Bool) : 1 ≤ gridCap a ∧ gridCap a ≤ 7 := by cases a <;> decide

theorem gridCount_pos (cap side m : Nat) : 1 ≤ gridCount cap side m := le_max_left _ _

/-- The longer side has as many rows of the grid as there can be (45_dct_hash.md R324). -/
theorem gridCount_self {cap m : Nat} (hc : 1 ≤ cap) (hm : 1 ≤ m) : gridCount cap m m = cap := by
  have hdiv : (2 * cap * m + m) / (2 * m) = cap := by
    rw [show 2 * cap * m + m = m + 2 * m * cap by ring, Nat.add_mul_div_left _ _ (by omega),
      Nat.div_eq_of_lt (by omega), Nat.zero_add]
  rw [gridCount, hdiv, max_eq_right hc]

theorem imageLx_le (w h : Nat) (px : List Pixel) : imageLx w h px ≤ gridCap (hasAlphaOf w h px) :=
  gridCount_le (gridCap_bounds _).1 (le_max_left w h)

theorem imageLy_le (w h : Nat) (px : List Pixel) : imageLy w h px ≤ gridCap (hasAlphaOf w h px) :=
  gridCount_le (gridCap_bounds _).1 (le_max_right w h)

section

variable {N : Type} (ns : NumberSystem N) (w h : Nat) (px : List Pixel)

/-- The grid of the shorter side is at least 1 and at most the cap (45_dct_hash.md R324, R333). -/
theorem encodedHeader_grid :
    1 ≤ (encodedHeader ns w h px).grid ∧ (encodedHeader ns w h px).grid ≤ gridCap (hasAlphaOf w h px) := by
  simp only [encodedHeader]
  split
  · exact ⟨gridCount_pos _ _ _, imageLy_le w h px⟩
  · exact ⟨gridCount_pos _ _ _, imageLx_le w h px⟩

theorem encodedHeader_fits : (encodedHeader ns w h px).Fits := by
  have hg := (encodedHeader_grid ns w h px).2
  have hc := (gridCap_bounds (hasAlphaOf w h px)).2
  exact ⟨fieldOf_lt _ _ _, offsetFieldOf_lt _ _, offsetFieldOf_lt _ _, fieldOf_lt _ _ _, by omega, fieldOf_lt _ _ _,
    fieldOf_lt _ _ _⟩

/-- The header in an image's hash. -/
theorem headerOf_hashEncode : headerOf (hashEncode ns w h px) = encodedHeader ns w h px := by
  rw [hashEncode_eq]
  exact headerOf_words (encodedHeader_fits ns w h px) _

/-- The orientation flag and the grid tell both counts of the image's grid (45_dct_hash.md R341). -/
theorem encodedHeader_lx_ly (hw : 1 ≤ w) (hh : 1 ≤ h) :
    (encodedHeader ns w h px).lx = imageLx w h px ∧ (encodedHeader ns w h px).ly = imageLy w h px := by
  have hcap := (gridCap_bounds (hasAlphaOf w h px)).1
  simp only [HashHeader.lx, HashHeader.ly, encodedHeader]
  by_cases hl : h < w
  · simp [hl, imageLx, max_eq_left hl.le, gridCount_self hcap hw]
  · simp [hl, imageLy, max_eq_right (Nat.le_of_not_lt hl), gridCount_self hcap hh]

end

/-- The alphas sum to less than those of an opaque image exactly if some pixel is not opaque (45_dct_hash.md R323). -/
theorem sum_alpha_lt_iff : ∀ px : List Pixel,
    (px.map fun p => p.a.toNat).sum < 255 * px.length ↔ ∃ p ∈ px, p.a.toNat < 255
  | [] => by simp
  | p :: px => by
    have ih := sum_alpha_lt_iff px
    have hp := p.a.isLt
    have hle : (px.map fun p => p.a.toNat).sum ≤ 255 * px.length := by
      refine (List.sum_le_card_nsmul _ 255 fun n hn => ?_).trans_eq (by simp [Nat.mul_comm])
      obtain ⟨q, -, rfl⟩ := List.mem_map.1 hn
      have := q.a.isLt
      omega
    simp only [List.map_cons, List.sum_cons, List.length_cons, List.exists_mem_cons_iff, ← ih]
    omega

/-- `hasAlpha` is 1 exactly if some pixel is not opaque (45_dct_hash.md R323). -/
theorem hasAlphaOf_iff {w h : Nat} {px : List Pixel} (hpx : px.length = w * h) :
    hasAlphaOf w h px = true ↔ ∃ p ∈ px, p.a.toNat < 255 := by
  rw [hasAlphaOf, decide_eq_true_eq, ← hpx, sum_alpha_lt_iff]

/-! ### Its length -/

/-- Two nibbles take a byte, and an unpaired last one (45_dct_hash.md R335). -/
theorem packNibbles_length : ∀ l : List Nat, (packNibbles l).length = (l.length + 1) / 2
  | [] => rfl
  | [_] => by simp [packNibbles]
  | _ :: _ :: l => by
    simp only [packNibbles, List.length_cons, packNibbles_length l]
    omega

/-- The hash length that a grid implies (45_dct_hash.md R345). -/
def lengthOfGrid (hasAlpha : Bool) (lx ly : Nat) : Nat :=
  (if hasAlpha then 6 else 5) +
    (acCount (max 3 lx) (max 3 ly) + acCount 3 3 + acCount 3 3 + (if hasAlpha then acCount 5 5 else 0) + 1) / 2

theorem need_eq (hd : HashHeader) : hd.need = lengthOfGrid hd.hasAlpha hd.lx hd.ly := rfl

/-- The grids an encoder makes imply lengths from 17 to 25 (45_dct_hash.md R345). -/
theorem lengthOfGrid_bounds : ∀ a : Bool, ∀ g < 8, 1 ≤ g → g ≤ gridCap a →
    (17 ≤ lengthOfGrid a (gridCap a) g ∧ lengthOfGrid a (gridCap a) g ≤ 25) ∧
    (17 ≤ lengthOfGrid a g (gridCap a) ∧ lengthOfGrid a g (gridCap a) ≤ 25) := by
  decide

/-- A header whose grid an encoder makes implies a length from 17 to 25. -/
theorem need_bounds {hd : HashHeader} (h1 : 1 ≤ hd.grid) (hc : hd.grid ≤ gridCap hd.hasAlpha) : 17 ≤ hd.need ∧ hd.need ≤ 25 := by
  have h7 := (gridCap_bounds hd.hasAlpha).2
  obtain ⟨hland, hport⟩ := lengthOfGrid_bounds hd.hasAlpha hd.grid (by omega) h1 hc
  rw [need_eq]
  unfold HashHeader.lx HashHeader.ly
  cases hd.isLandscape with
  | true => exact hland
  | false => exact hport

section

variable {N : Type} (ns : NumberSystem N) (w h : Nat) (px : List Pixel)

/-- A channel has a nibble for each AC pair of its grid (45_dct_hash.md R329, R331). -/
theorem nibbles_length (nx ny : Nat) (ch : List N) : ((coeffs ns w h nx ny ch).nibbles ns).length = acCount nx ny := by
  simp [Coeffs.nibbles, coeffs, acPairs, acCount]

theorem imageNibbles_length : (imageNibbles ns w h px).length =
    acCount (max 3 (imageLx w h px)) (max 3 (imageLy w h px)) + acCount 3 3 + acCount 3 3 +
      (if hasAlphaOf w h px then acCount 5 5 else 0) := by
  simp only [imageNibbles, List.length_append, lumaCoeffs, pCoeffs, qCoeffs, alphaCoeffs, nibbles_length]
  split
  · rw [nibbles_length]
  · rfl

theorem alphaBytes_length : (alphaBytes ns w h px).length = if hasAlphaOf w h px then 1 else 0 := by
  unfold alphaBytes
  split <;> rfl

/-- A hash has the length its header implies (45_dct_hash.md R345, R349). -/
theorem hashEncode_length (hw : 1 ≤ w) (hh : 1 ≤ h) : (hashEncode ns w h px).length = (encodedHeader ns w h px).need := by
  obtain ⟨hx, hy⟩ := encodedHeader_lx_ly ns w h px hw hh
  have ha : (encodedHeader ns w h px).hasAlpha = hasAlphaOf w h px := rfl
  rw [need_eq, hx, hy, ha, lengthOfGrid, hashEncode_eq, List.length_append, List.length_append, List.length_append, leBytes_length,
    leBytes_length, alphaBytes_length, packNibbles_length, imageNibbles_length]
  split_ifs <;> omega

end

/-- The header of a hash is truthful, and the hash as long as its header says (30_encoding.md R117; 45_dct_hash.md R345). -/
theorem hashEncode_truthful {N : Type} (ns : NumberSystem N) {w h : Nat} {px : List Pixel} {bytes : List Byte} {hd : HashHeader}
    (hw : 1 ≤ w) (hh : 1 ≤ h) (hpx : px.length = w * h) (hb : bytes = hashEncode ns w h px) (hhd : hd = headerOf bytes) :
    (hd.hasAlpha = true ↔ ∃ p ∈ px, p.a.toNat < 255) ∧ (hd.isLandscape = true ↔ h < w) ∧
    hd.lx = max 1 ((2 * gridCap hd.hasAlpha * w + max w h) / (2 * max w h)) ∧
    hd.ly = max 1 ((2 * gridCap hd.hasAlpha * h + max w h) / (2 * max w h)) ∧
    hd.grid ≠ 0 ∧ bytes.length = hd.need ∧ 17 ≤ bytes.length ∧ bytes.length ≤ 25 := by
  obtain rfl : hd = encodedHeader ns w h px := by rw [hhd, hb, headerOf_hashEncode]
  obtain ⟨hx, hy⟩ := encodedHeader_lx_ly ns w h px hw hh
  obtain ⟨h1, hc⟩ := encodedHeader_grid ns w h px
  have hlen : bytes.length = (encodedHeader ns w h px).need := hb ▸ hashEncode_length ns w h px hw hh
  obtain ⟨h17, h25⟩ := need_bounds (hd := encodedHeader ns w h px) h1 hc
  exact ⟨hasAlphaOf_iff hpx, decide_eq_true_iff, hx, hy, Nat.ne_of_gt h1, hlen, hlen ▸ h17, hlen ▸ h25⟩

end Sys2Proof.Machine
end

section
/-! The DC fields of a hash over the exact reals: the rounded means of the channels (45_dct_hash.md R322, R325, R328, R331). -/

namespace Sys2Proof.Machine

/-! ### The operations of the exact reals on rational numbers -/

@[simp] theorem exactReals_add (c d : Rat) : exactReals.add (.ofRat c) (.ofRat d) = .ofRat (c + d) := add_ofRat c d

@[simp] theorem exactReals_sub (c d : Rat) : exactReals.sub (.ofRat c) (.ofRat d) = .ofRat (c - d) := sub_ofRat c d

@[simp] theorem exactReals_mul (c d : Rat) : exactReals.mul (.ofRat c) (.ofRat d) = .ofRat (c * d) := mul_ofRat c d

@[simp] theorem exactReals_le (c d : Rat) : exactReals.le (.ofRat c) (.ofRat d) = decide (c ≤ d) := le_ofRat c d

theorem exactReals_div (c : Rat) {d : Rat} (h : d ≠ 0) : exactReals.div (.ofRat c) (.ofRat d) = .ofRat (c / d) := div_ofRat c h

@[simp] theorem unit255_exactReals (b : Byte) : exactReals.unit255 b = .ofRat ((b.toNat : Rat) / 255) :=
  frac_exactReals _ (by decide)

/-! ### The average colour -/

/-- A sum of natural numbers divided term by term. -/
theorem sum_map_cast_div {α : Type} (f : α → Nat) (c : Rat) (l : List α) :
    (l.map fun x => (f x : Rat) / c).sum = ((l.map f).sum : Nat) / c := by
  induction l with
  | nil => simp
  | cons x l ih => simp [ih, add_div]

theorem sum_map_exactReals {α : Type} (f : α → Rat) (l : List α) :
    exactReals.sum (l.map fun x => .ofRat (f x)) = .ofRat (l.map f).sum := by
  rw [← sum_exactReals, List.map_map]
  rfl

/-- `sum_a` (45_dct_hash.md R322). -/
theorem sumAlpha_exactReals (px : List Pixel) :
    sumAlpha exactReals px = .ofRat (((px.map fun p => p.a.toNat).sum : Nat) / 255) := by
  simp only [sumAlpha, unit255_exactReals, sum_map_exactReals, sum_map_cast_div]

/-- A colour weighted by alpha is at most 255 times the alpha. -/
theorem weighted_sum_le (sel : Pixel → Byte) : ∀ px : List Pixel,
    (px.map fun p => (sel p).toNat * p.a.toNat).sum ≤ 255 * (px.map fun p => p.a.toNat).sum
  | [] => le_rfl
  | p :: px => by
    have hp : (sel p).toNat * p.a.toNat ≤ 255 * p.a.toNat := Nat.mul_le_mul_right _ (Nat.le_of_lt_succ (sel p).isLt)
    have ih := weighted_sum_le sel px
    simp only [List.map_cons, List.sum_cons]
    omega

/-- The alpha-weighted average of a colour over the exact reals (45_dct_hash.md R322). -/
theorem average_exactReals (px : List Pixel) (sel : Pixel → Byte) : average exactReals px sel = .ofRat (averageColour px sel) := by
  have hsum : exactReals.sum (px.map fun p => exactReals.mul (exactReals.unit255 (sel p)) (exactReals.unit255 p.a)) =
      .ofRat (((px.map fun p => (sel p).toNat * p.a.toNat).sum : Nat) / (255 * 255)) := by
    rw [← sum_map_cast_div, ← sum_map_exactReals]
    refine congrArg _ (List.map_congr_left fun p _ => ?_)
    simp only [unit255_exactReals, exactReals_mul, div_mul_div_comm, Nat.cast_mul]
  have hle := weighted_sum_le sel px
  simp only [average, hsum, sumAlpha_exactReals, averageColour, ofNat_exactReals, exactReals_le, decide_eq_true_eq]
  by_cases h0 : (px.map fun p => p.a.toNat).sum = 0
  · have hw : (px.map fun p => (sel p).toNat * p.a.toNat).sum = 0 := by omega
    simp [h0, hw]
  · have hpos : (0 : Rat) < ((px.map fun p => p.a.toNat).sum : Nat) := by exact_mod_cast Nat.pos_of_ne_zero h0
    rw [if_neg (by rw [Nat.cast_zero]; exact not_le.2 (by positivity)), if_neg h0, exactReals_div _ (by positivity)]
    congr 1
    field_simp

/-- An average colour is between 0 and 1. -/
theorem averageColour_bounds (px : List Pixel) (sel : Pixel → Byte) : 0 ≤ averageColour px sel ∧ averageColour px sel ≤ 1 := by
  have hle : (((px.map fun p => (sel p).toNat * p.a.toNat).sum : Nat) : Rat) ≤ 255 * ((px.map fun p => p.a.toNat).sum : Nat) := by
    exact_mod_cast weighted_sum_le sel px
  unfold averageColour
  split
  · exact ⟨le_rfl, zero_le_one⟩
  · exact ⟨by positivity, div_le_one_of_le₀ hle (by positivity)⟩

/-- A byte as a fraction of 255 is between 0 and 1 (45_dct_hash.md R321). -/
theorem byte_fraction_bounds (b : Byte) : 0 ≤ (b.toNat : Rat) / 255 ∧ (b.toNat : Rat) / 255 ≤ 1 := by
  have hb : (b.toNat : Rat) ≤ 255 := by exact_mod_cast Nat.le_of_lt_succ b.isLt
  exact ⟨by positivity, div_le_one_of_le₀ hb (by norm_num)⟩

/-- A composited colour is between 0 and 1 (45_dct_hash.md R325). -/
theorem composited_bounds (px : List Pixel) (sel : Pixel → Byte) (p : Pixel) :
    0 ≤ composited px sel p ∧ composited px sel p ≤ 1 := by
  obtain ⟨hA0, hA1⟩ := averageColour_bounds px sel
  obtain ⟨ha0, ha1⟩ := byte_fraction_bounds p.a
  obtain ⟨hc0, hc1⟩ := byte_fraction_bounds (sel p)
  have ha' : 0 ≤ 1 - (p.a.toNat : Rat) / 255 := sub_nonneg.2 ha1
  refine ⟨add_nonneg (mul_nonneg hA0 ha') (mul_nonneg ha0 hc0), ?_⟩
  calc composited px sel p ≤ 1 * (1 - (p.a.toNat : Rat) / 255) + (p.a.toNat : Rat) / 255 * 1 :=
        add_le_add (mul_le_mul_of_nonneg_right hA1 ha') (mul_le_mul_of_nonneg_left hc1 ha0)
    _ = 1 := by ring

/-! ### The channels -/

theorem compositeOver_exactReals (px : List Pixel) (sel : Pixel → Byte) (p : Pixel) :
    compositeOver exactReals (average exactReals px sel) (sel p) p.a = .ofRat (composited px sel p) := by
  rw [average_exactReals, compositeOver, ofNat_exactReals]
  simp [composited]

/-- The four channels over the exact reals are rational numbers (45_dct_hash.md R325). -/
theorem channelsOf_exactReals {px : List Pixel} {r g b : Pixel → Rat} (hr : r = composited px Pixel.r) (hg : g = composited px Pixel.g)
    (hb : b = composited px Pixel.b) : channelsOf exactReals px =
      { l := px.map fun p => .ofRat ((r p + g p + b p) / 3)
        p := px.map fun p => .ofRat ((r p + g p) / 2 - b p)
        q := px.map fun p => .ofRat (r p - g p)
        a := px.map fun p => .ofRat ((p.a.toNat : Rat) / 255) } := by
  subst hr hg hb
  have h2 : (2 : Rat) ≠ 0 := by norm_num
  have h3 : (3 : Rat) ≠ 0 := by norm_num
  simp only [channelsOf, compositeOver_exactReals, List.map_map, unit255_exactReals, Function.comp_def, exactReals_add,
    exactReals_sub, ofNat_exactReals, exactReals_div _ h2, exactReals_div _ h3, Nat.cast_ofNat]

/-! ### The mean -/

/-- The transform at frequency (0, 0) is the mean (45_dct_hash.md R328). -/
theorem forward_zero {w h : Nat} (hw : 1 ≤ w) (hh : 1 ≤ h) {px : List Pixel} (hpx : px.length = w * h) (f : Pixel → Rat) :
    forward exactReals w h (px.map fun p => .ofRat (f p)) (0, 0) = .ofRat (meanOf px f) := by
  have hwh : w * h ≠ 0 := Nat.mul_ne_zero (by omega) (by omega)
  have hterms : ((px.map fun p => ExactReal.ofRat (f p)).zipIdx.map fun v =>
      exactReals.mul (exactReals.mul v.1 (exactReals.wave w 0 (v.2 % w))) (exactReals.wave h 0 (v.2 / w))) =
        px.map fun p => .ofRat (f p) := by
    conv_rhs => rw [← List.zipIdx_map_fst 0 px, List.map_map]
    rw [List.zipIdx_map, List.map_map]
    refine List.map_congr_left fun v _ => ?_
    simp [wave_zero hw, wave_zero hh]
  rw [forward, hterms, sum_map_exactReals, frac_exactReals _ hwh, exactReals_mul, meanOf, hpx]
  congr 1
  push_cast
  ring

/-- A mean is between the bounds of its values. -/
theorem meanOf_bounds {px : List Pixel} {f : Pixel → Rat} {lo hi : Rat} (hne : px ≠ []) (h : ∀ p, lo ≤ f p ∧ f p ≤ hi) :
    lo ≤ meanOf px f ∧ meanOf px f ≤ hi := by
  have hlen : (0 : Rat) < px.length := by exact_mod_cast List.length_pos_of_ne_nil hne
  have hlo := List.card_nsmul_le_sum (px.map f) lo fun x hx => by
    obtain ⟨p, -, rfl⟩ := List.mem_map.1 hx
    exact (h p).1
  have hhi := List.sum_le_card_nsmul (px.map f) hi fun x hx => by
    obtain ⟨p, -, rfl⟩ := List.mem_map.1 hx
    exact (h p).2
  rw [List.length_map, nsmul_eq_mul, mul_comm] at hlo hhi
  rw [meanOf, le_div_iff₀ hlen, div_le_iff₀ hlen]
  exact ⟨hlo, hhi⟩

/-! ### The fields -/

/-- A number rounded half up into its field's range is the field (00_scope.md R8). -/
theorem rhu_field {bits : Nat} {v : Rat} (h0 : 0 ≤ v) (h1 : v ≤ ((2 ^ bits - 1 : Nat) : Rat)) :
    ((fieldBits bits (exactReals.rhu (.ofRat v))).toNat : Int) = (v + 1 / 2).floor := by
  have hpow : ((2 ^ bits - 1 : Nat) : Rat) = 2 ^ bits - 1 := by
    rw [Nat.cast_sub Nat.one_le_two_pow]
    push_cast
    rfl
  rw [hpow] at h1
  rw [rhu_exactReals]
  refine toNat_fieldBits (Rat.le_floor_iff.mpr ?_) (Rat.floor_lt_iff.mpr ?_)
  · push_cast
    linarith
  · push_cast
    linarith

/-- A field of a value between 0 and 1 (45_dct_hash.md R331). -/
theorem fieldOf_exactReals (bits : Nat) {v : Rat} (h0 : 0 ≤ v) (h1 : v ≤ 1) :
    (fieldOf exactReals bits (.ofRat v) : Int) = (((2 ^ bits - 1 : Nat) : Rat) * v + 1 / 2).floor := by
  rw [fieldOf, ofNat_exactReals, exactReals_mul]
  exact rhu_field (mul_nonneg (Nat.cast_nonneg _) h0) (mul_le_of_le_one_right (Nat.cast_nonneg _) h1)

/-- An offset field of a value between -1 and 1 (45_dct_hash.md R331). -/
theorem offsetFieldOf_exactReals {v : Rat} (h0 : -1 ≤ v) (h1 : v ≤ 1) :
    (offsetFieldOf exactReals (.ofRat v) : Int) = (63 / 2 + 63 / 2 * v + 1 / 2).floor := by
  have hfrac : exactReals.frac 63 2 = .ofRat (63 / 2) := frac_exactReals 63 (by decide)
  rw [offsetFieldOf, hfrac, exactReals_mul, exactReals_add]
  exact rhu_field (by linarith) (by push_cast; linarith)

/-! ### The DC fields of a hash -/

section

variable {w h : Nat} {px : List Pixel} {r g b : Pixel → Rat} (hw : 1 ≤ w) (hh : 1 ≤ h) (hpx : px.length = w * h)
  (hr : r = composited px Pixel.r) (hg : g = composited px Pixel.g) (hb : b = composited px Pixel.b)
include hw hh hpx

theorem ne_nil_of_image : px ≠ [] :=
  List.ne_nil_of_length_pos (hpx ▸ Nat.mul_pos hw hh)

include hr hg hb

/-- The DC values are the means of the channels (45_dct_hash.md R325, R328). -/
theorem dc_exactReals :
    (lumaCoeffs exactReals w h px).dc = .ofRat (meanOf px fun p => (r p + g p + b p) / 3) ∧
    (pCoeffs exactReals w h px).dc = .ofRat (meanOf px fun p => (r p + g p) / 2 - b p) ∧
    (qCoeffs exactReals w h px).dc = .ofRat (meanOf px fun p => r p - g p) ∧
    (alphaCoeffs exactReals w h px).dc = .ofRat (meanOf px fun p => (p.a.toNat : Rat) / 255) := by
  simp only [lumaCoeffs, pCoeffs, qCoeffs, alphaCoeffs, coeffs, channelsOf_exactReals hr hg hb, forward_zero hw hh hpx, and_self]

/-- The means lie where their fields can hold them (45_dct_hash.md R331). -/
theorem mean_bounds :
    (0 ≤ meanOf px (fun p => (r p + g p + b p) / 3) ∧ meanOf px (fun p => (r p + g p + b p) / 3) ≤ 1) ∧
    (-1 ≤ meanOf px (fun p => (r p + g p) / 2 - b p) ∧ meanOf px (fun p => (r p + g p) / 2 - b p) ≤ 1) ∧
    (-1 ≤ meanOf px (fun p => r p - g p) ∧ meanOf px (fun p => r p - g p) ≤ 1) := by
  have hne := ne_nil_of_image hw hh hpx
  have hr' : ∀ p, 0 ≤ r p ∧ r p ≤ 1 := hr ▸ composited_bounds px Pixel.r
  have hg' : ∀ p, 0 ≤ g p ∧ g p ≤ 1 := hg ▸ composited_bounds px Pixel.g
  have hb' : ∀ p, 0 ≤ b p ∧ b p ≤ 1 := hb ▸ composited_bounds px Pixel.b
  refine ⟨meanOf_bounds hne fun p => ?_, meanOf_bounds hne fun p => ?_, meanOf_bounds hne fun p => ?_⟩ <;>
  · obtain ⟨hr0, hr1⟩ := hr' p
    obtain ⟨hg0, hg1⟩ := hg' p
    obtain ⟨hb0, hb1⟩ := hb' p
    constructor <;> linarith

/-- The colour DC fields are the rounded means (45_dct_hash.md R331). -/
theorem dcFields_exactReals :
    ((encodedHeader exactReals w h px).lDc : Int) = (63 * meanOf px (fun p => (r p + g p + b p) / 3) + 1 / 2).floor ∧
    ((encodedHeader exactReals w h px).pDc : Int) = (63 / 2 + 63 / 2 * meanOf px (fun p => (r p + g p) / 2 - b p) + 1 / 2).floor ∧
    ((encodedHeader exactReals w h px).qDc : Int) = (63 / 2 + 63 / 2 * meanOf px (fun p => r p - g p) + 1 / 2).floor := by
  obtain ⟨hl, hp, hq, -⟩ := dc_exactReals hw hh hpx hr hg hb
  obtain ⟨⟨hl0, hl1⟩, ⟨hp0, hp1⟩, ⟨hq0, hq1⟩⟩ := mean_bounds hw hh hpx hr hg hb
  simp only [encodedHeader, hl, hp, hq]
  exact ⟨fieldOf_exactReals 6 hl0 hl1, offsetFieldOf_exactReals hp0 hp1, offsetFieldOf_exactReals hq0 hq1⟩

end

/-- The low half of the alpha byte of an image with alpha is its DC field (45_dct_hash.md R334). -/
theorem alphaByte_low {N : Type} (ns : NumberSystem N) {w h : Nat} {px : List Pixel} (ha : hasAlphaOf w h px = true) :
    ((hashEncode ns w h px).getD 5 0).toNat % 16 = fieldOf ns 4 (alphaCoeffs ns w h px).dc := by
  have hdc := fieldOf_lt ns 4 (alphaCoeffs ns w h px).dc
  have hbyte : (hashEncode ns w h px).getD 5 0 =
      BitVec.ofNat 8 (fieldOf ns 4 (alphaCoeffs ns w h px).dc + 16 * fieldOf ns 4 (alphaCoeffs ns w h px).scale) := by
    rw [hashEncode_eq, alphaBytes, if_pos ha]
    rfl
  rw [hbyte, BitVec.toNat_ofNat]
  omega

/-- The alpha DC field is the rounded mean of alpha (45_dct_hash.md R331, R334). -/
theorem alphaField_exactReals {w h : Nat} {px : List Pixel} (hw : 1 ≤ w) (hh : 1 ≤ h) (hpx : px.length = w * h)
    (ha : hasAlphaOf w h px = true) : (((hashEncode exactReals w h px).getD 5 0).toNat % 16 : Int) =
      (15 * meanOf px (fun p => (p.a.toNat : Rat) / 255) + 1 / 2).floor := by
  obtain ⟨-, -, -, hdc⟩ := dc_exactReals hw hh hpx rfl rfl rfl
  obtain ⟨h0, h1⟩ := meanOf_bounds (ne_nil_of_image hw hh hpx) fun p => byte_fraction_bounds p.a
  have hfield := fieldOf_exactReals 4 h0 h1
  rw [← hdc, ← alphaByte_low exactReals ha] at hfield
  exact hfield

/-! ### Three worked hashes (45_dct_hash.md R365; 95_test_vectors.md HASH-2, HASH-3) -/

theorem hashEncode_flat : hashEncode exactReals 4 4 (List.replicate 16 ⟨0xC8, 0x64, 0x32, 0xFF⟩) =
    [0x1D, 0xCB, 0x02, 0x07, 0x00] ++ List.replicate 18 0x88 ++ [0x08] := by
  decide +kernel

theorem hashEncode_onePixel : hashEncode exactReals 1 1 [⟨0xFF, 0x80, 0x00, 0xFF⟩] =
    [0xE0, 0xFD, 0x42, 0x7F, 0x3F, 0x08, 0xF8, 0x08, 0x88, 0x88, 0x88, 0x80, 0x8F, 0x80, 0x88, 0xF8, 0x08, 0x88, 0x80, 0x80, 0x08,
     0x08, 0x88, 0x00] := by
  decide +kernel

theorem hashEncode_fourColours :
    hashEncode exactReals 2 2 [⟨0xFF, 0, 0, 0xFF⟩, ⟨0, 0xFF, 0, 0xFF⟩, ⟨0, 0, 0xFF, 0xFF⟩, ⟨0xFF, 0xFF, 0xFF, 0xFF⟩] =
    [0x20, 0x08, 0x42, 0xB7, 0x2C, 0x86, 0x09, 0x89, 0x96, 0x68, 0x69, 0x88, 0x88, 0x98, 0x86, 0x09, 0x89, 0x69, 0x48, 0xF8, 0x8A,
     0x8F, 0xD8, 0x08] := by
  decide +kernel

/-- Settles O47: the header's words give its fields back, the DC values are means that lie in their fields' ranges, and three hashes
are evaluated. -/
theorem encodedHashIsDecodable : Obligations.EncodedHashIsDecodable := by
  refine ⟨fun N ns w h px bytes hd hw _ hh _ hpx hb hhd => hashEncode_truthful ns hw hh hpx hb hhd, ?_, hashEncode_flat,
    hashEncode_onePixel, hashEncode_fourColours⟩
  intro w h px bytes hd r g b hw _ hh _ hpx hbytes hhd hr hg hb
  obtain rfl : hd = encodedHeader exactReals w h px := by rw [hhd, hbytes, headerOf_hashEncode]
  obtain ⟨hl, hp, hq⟩ := dcFields_exactReals hw hh hpx hr hg hb
  exact ⟨hl, hp, hq, fun ha => hbytes ▸ alphaField_exactReals hw hh hpx ha⟩

end Sys2Proof.Machine
end

section
/-! The sizes of tiles and canvases, an invariant of every step (10_state.md R41; 40_commands.md R148 to R150; 42_scanline.md R240). -/

namespace Sys2Proof.Machine

/-! ### Outside RECON and COMPOSE -/

/-- The part of the invariant that does not depend on what runs. -/
def State.SizesOk (s : State) : Prop :=
  s.params.Ok ∧ (s.valid.tile = true → s.SizeOk s.regs.tileW s.regs.tileH) ∧
  (s.valid.canvas = true → s.SizeOk s.regs.canvasW s.regs.canvasH)

theorem sizesOk_of_sizeInv {s : State} (h : s.SizeInv) : s.SizesOk := by
  obtain ⟨hp, ht, hc, -⟩ := h
  exact ⟨hp, ht, hc⟩

/-- While nothing runs, or INFLATE, the invariant speaks of the valid sizes alone. -/
theorem sizeInv_of_sizesOk {s : State} (h : s.SizesOk) (hp : s.phase.isBusy = true → s.phase.isU1 = true) : s.SizeInv := by
  obtain ⟨h1, h2, h3⟩ := h
  have hno : ∀ a : Await, a.isU1 = false → s.phase ≠ .busy a := fun a ha hs => by
    rw [hs] at hp
    exact Bool.noConfusion (ha.symm.trans (hp rfl))
  exact ⟨h1, h2, h3, fun h => absurd h (hno _ rfl), fun h => h.elim (absurd · (hno _ rfl)) (absurd · (hno _ rfl))⟩

theorem sizeInv_raise {s : State} (h : s.SizesOk) (f : FaultCode) (u : UnitId) : (s.raise f u).SizeInv :=
  sizeInv_of_sizesOk (s := s.raise f u) h nofun

/-- U1 changes no size. -/
theorem sizeInv_keptByInflate : KeptByInflate (fun s => s.SizesOk ∧ s.phase.isU1 = true) State.SizeInv where
  raise f h := sizeInv_raise h.1 f .inflate
  bit _ h := h
  align h := h
  below _ _ h := h
  grown _ _ _ h := h
  storedLen _ h := h
  matchLen _ h := h
  unit _ _ h := h
  await _ ha h := ⟨h.1, ha⟩
  finish {s} h := by
    obtain ⟨⟨hp, ht, hc⟩, -⟩ := h
    exact sizeInv_of_sizesOk (s := s.endInflate) ⟨hp, ht, hc⟩ nofun

/-! ### The pass list (43_deinterlace.md R280 to R283) -/

/-- The pass gone to is not empty (42_scanline.md R240). -/
theorem nextPass_not_isEmpty {ps : List Pass} {i : Nat} (h : nextPass ps i < ps.length) : (ps[nextPass ps i]).isEmpty = false := by
  have hlen : ((ps.drop i).takeWhile Pass.isEmpty).length = (ps.drop i).findIdx fun p => !p.isEmpty := by
    rw [List.takeWhile_eq_take_findIdx_not, List.length_take, min_eq_left List.findIdx_le_length]
  have hlt : (ps.drop i).findIdx (fun p => !p.isEmpty) < (ps.drop i).length := by
    rw [← hlen, List.length_drop]
    unfold nextPass at h
    omega
  have hp := List.findIdx_getElem (w := hlt)
  simp only [List.getElem_drop, ← hlen] at hp
  simpa [nextPass] using hp

/-- A pass with pixels has a column and a row. -/
theorem pass_pos {p : Pass} (h : p.isEmpty = false) : 1 ≤ p.pw ∧ 0 < p.ph := by
  simp only [Pass.isEmpty, Bool.or_eq_false_iff, beq_eq_false_iff_ne] at h
  omega

/-- The first pass of an image has pixels (43_deinterlace.md R280, R281). -/
theorem passList_first {w h : Nat} (hw : 1 ≤ w) (hh : 1 ≤ h) (il : Bool) : ∃ p rest, passList w h il = p :: rest ∧
    p.pw = (if il then (w + 7) / 8 else w) ∧ p.isEmpty = false := by
  cases il with
  | false => exact ⟨_, _, rfl, rfl, by simp [Pass.isEmpty]; omega⟩
  | true =>
    have hx : ∀ {n : Nat}, 1 ≤ n → passExtent n 0 8 = (n + 7) / 8 := fun h => if_pos h
    refine ⟨_, _, rfl, hx hw, ?_⟩
    simp only [Pass.isEmpty, hx hw, hx hh, Bool.or_eq_false_iff, beq_eq_false_iff_ne]
    omega

/-- RECON begins with the first pass (42_scanline.md R240). -/
theorem nextPass_first {w h : Nat} (hw : 1 ≤ w) (hh : 1 ≤ h) (il : Bool) : nextPass (passList w h il) 0 = 0 := by
  obtain ⟨p, rest, hl, -, he⟩ := passList_first hw hh il
  simp [nextPass, hl, he]

/-! ### A scanline -/

/-- A running RECON is at a row of a pass with pixels. -/
def State.ReconSizes (s : State) : Prop :=
  s.SizesOk ∧ s.phase = .busy .scanline ∧ s.SizeOk s.regs.fW s.regs.fH ∧ s.u2.passIdx < s.passes.length ∧
  1 ≤ s.currentPass.pw ∧ s.u2.row < s.currentPass.ph

theorem reconSizes_of_sizeInv {s : State} (h : s.SizeInv) (hp : s.phase = .busy .scanline) : s.ReconSizes := by
  obtain ⟨h1, h2, h3, h4, -⟩ := h
  exact ⟨⟨h1, h2, h3⟩, hp, h4 hp⟩

theorem sizeInv_of_reconSizes {s : State} (h : s.ReconSizes) : s.SizeInv := by
  obtain ⟨⟨h1, h2, h3⟩, hp, h4⟩ := h
  exact ⟨h1, h2, h3, fun _ => h4, by simp [hp]⟩

/-- A pass that is gone to, in the pass list, has a first row. -/
theorem reconSizes_startPass {s : State} {i : Nat} (pos : Nat) (h : s.SizesOk) (hp : s.phase = .busy .scanline)
    (hf : s.SizeOk s.regs.fW s.regs.fH) (hi : nextPass s.passes i < s.passes.length) :
    (s.startPass (nextPass s.passes i) pos).ReconSizes := by
  have hc : (s.startPass (nextPass s.passes i) pos).currentPass = s.passes[nextPass s.passes i] := List.getD_eq_getElem _ _ hi
  obtain ⟨hw, hh⟩ := pass_pos (nextPass_not_isEmpty hi)
  exact ⟨h, hp, hf, hi, hc ▸ hw, hc ▸ hh⟩

/-- After a line RECON is at a row of its pass list, or its tile has the frame's size. -/
theorem sizeInv_nextLine {s : State} (h : s.ReconSizes) : s.nextLine.SizeInv := by
  obtain ⟨hs, hp, hf, hi, hw, hr⟩ := h
  unfold State.nextLine
  split_ifs with hrow hpass
  · exact sizeInv_of_reconSizes ⟨hs, hp, hf, hi, hw, hrow⟩
  · exact sizeInv_of_reconSizes (reconSizes_startPass s.u2.pos hs hp hf hpass)
  · obtain ⟨h1, -, h3⟩ := hs
    exact sizeInv_of_sizesOk (s := s.endRecon) ⟨h1, fun _ => hf, h3⟩ nofun

theorem sizeInv_reconLine {s : State} (h : s.ReconSizes) (ft : Filter) : (s.reconLine ft).SizeInv := by
  unfold State.reconLine
  obtain ⟨m, hw | hw⟩ := writePixels_cases s.currentPass.pw (s.takeLine ft) 0 <;> rw [hw]
  · exact sizeInv_nextLine (s := { s.takeLine ft with buf := { s.buf with tile := m } }) h
  · exact sizeInv_raise (s := { s.takeLine ft with buf := { s.buf with tile := m } }) h.1 _ _

theorem sizeInv_scanline {s t : State} (hp : s.phase = .busy .scanline) (h : s.SizeInv) (he : s.piece .scanline = .next t) :
    t.SizeInv := by
  obtain ⟨ft, rfl⟩ | rfl := run_filter (show s.run .filter _ = .next t from he)
  · exact sizeInv_reconLine (reconSizes_of_sizeInv h hp) ft
  · exact sizeInv_raise (sizesOk_of_sizeInv h) _ _

/-! ### COMPOSE -/

theorem sizeInv_blend {s t : State} (hp : s.phase = .busy .blend) (h : s.SizeInv) (he : s.piece .blend = .next t) : t.SizeInv := by
  obtain ⟨h1, h2, h3, -, h5⟩ := id h
  obtain ⟨⟨hpar, hregs, -⟩, hph, hv⟩ | ⟨-, rfl⟩ := run_blend_frame (show s.run .blend _ = .next t from he)
  · rw [State.SizeInv, State.SizeOk, State.SizeOk, State.RectInside, hpar, hv, hph, hregs]
    exact ⟨h1, h2, h3, nofun, fun _ => h5 (.inl hp)⟩
  · exact sizeInv_raise ⟨h1, h2, h3⟩ _ _

/-- The canvas a running COMPOSE has is valid again at its end. -/
theorem sizeInv_dispose {s t : State} (hp : s.phase = .busy .dispose) (h : s.SizeInv) (he : s.piece .dispose = .next t) :
    t.SizeInv := by
  obtain ⟨h1, h2, h3, -, h5⟩ := id h
  obtain ⟨⟨hpar, hregs, -⟩, hph, hv⟩ | ⟨-, rfl⟩ := run_dispose_frame (show s.run .dispose _ = .next t from he)
  · rw [State.SizeInv, State.SizeOk, State.SizeOk, State.RectInside, hpar, hv, hph, hregs]
    exact ⟨h1, h2, fun _ => (h5 (.inr hp)).1, nofun, nofun⟩
  · exact sizeInv_raise ⟨h1, h2, h3⟩ _ _

/-- Every piece of an element keeps the sizes. -/
theorem sizeInv_piece {s t : State} {a : Await} (hp : s.phase = .busy a) (h : s.SizeInv) (he : s.piece a = .next t) : t.SizeInv := by
  by_cases ha : a.isU1 = true
  · obtain ⟨hs, hu⟩ | hs := sizeInv_keptByInflate.piece ha ⟨sizesOk_of_sizeInv h, by rw [hp]; exact ha⟩ he
    · exact sizeInv_of_sizesOk hs fun _ => hu
    · exact hs
  · cases a with
    | scanline => exact sizeInv_scanline hp h he
    | blend => exact sizeInv_blend hp h he
    | dispose => exact sizeInv_dispose hp h he
    | _ => exact absurd rfl ha

/-! ### The host -/

/-- The sizes of `TILE` and `CANVAS` are read-only to the host (10_state.md R21). -/
theorem write_sizes (r : Regs) (n : Nat) (v : Word) : (r.write n v).tileW = r.tileW ∧ (r.write n v).tileH = r.tileH ∧
    (r.write n v).canvasW = r.canvasW ∧ (r.write n v).canvasH = r.canvasH := by
  unfold Regs.write
  split <;> exact ⟨rfl, rfl, rfl, rfl⟩

/-- What RECON has checked of its size (40_commands.md R148). -/
theorem size_of_reconAdmission {s : State} (h : s.reconAdmission = none) : s.SizeOk s.regs.fW s.regs.fH := by
  have := (firstFailing_none _ _).1 h (1 ≤ s.regs.fW.toNat && 1 ≤ s.regs.fH.toNat &&
    4 * s.regs.fW.toNat * s.regs.fH.toNat ≤ s.params.pixMax, .paramRange) (by simp)
  simpa [and_assoc] using this

/-- What COMPOSE has checked of its rectangle (40_commands.md R150). -/
theorem rect_of_composeAdmission {s : State} (h : s.composeAdmission = none) : s.RectInside := by
  have := (firstFailing_none _ _).1 h (s.regs.fX.toNat + s.regs.fW.toNat ≤ s.regs.canvasW.toNat &&
    s.regs.fY.toNat + s.regs.fH.toNat ≤ s.regs.canvasH.toNat, .frameRectRange) (by simp)
  simpa using this

/-- RECON begins at the first row of an image of legal size. -/
theorem sizeInv_startRecon {s : State} (h : s.SizesOk) (ha : s.reconAdmission = none) :
    (((s.openDest .tile).startPass (nextPass s.passes 0) 0).setPhase (.busy .scanline)).SizeInv := by
  have hf := size_of_reconAdmission ha
  obtain ⟨hw, hh, -⟩ := id hf
  obtain ⟨p, rest, hl, -⟩ := passList_first hw hh s.interlaced
  have hi : nextPass s.passes 0 < s.passes.length := by
    rw [State.passes, nextPass_first hw hh, hl]
    exact Nat.succ_pos _
  obtain ⟨h1, -, h3⟩ := h
  exact sizeInv_of_reconSizes (reconSizes_startPass (s := (s.openDest .tile).setPhase (.busy .scanline)) 0 ⟨h1, nofun, h3⟩ rfl hf hi)

/-- COMPOSE begins with the valid canvas it was admitted with. -/
theorem sizeInv_startCompose {s : State} (h : s.SizesOk) (ha : s.composeAdmission = none) : s.startCompose.SizeInv := by
  obtain ⟨h1, h2, h3⟩ := h
  have hrect := rect_of_composeAdmission ha
  obtain ⟨m, f, hc⟩ := startCompose_state s
  rw [hc]
  exact ⟨h1, h2, nofun, nofun, fun _ => ⟨h3 (valid_of_composeAdmission ha).2, hrect⟩⟩

/-- Every command that is admitted begins, or ends at once, with legal sizes. -/
theorem sizeInv_start {s t : State} (_ : s.Ready) (hs : s.Starts t) (h : s.SizeInv) : t.SizeInv := by
  have h := sizesOk_of_sizeInv h
  obtain ⟨h1, h2, -⟩ := id h
  cases hs with
  | recon ha => exact sizeInv_startRecon h ha
  | compose ha => exact sizeInv_startCompose h ha
  | canvasInit ha => exact sizeInv_of_sizesOk (s := s.initCanvas) ⟨h1, h2, fun _ => size_of_canvasInitAdmission ha⟩ nofun
  | inflate _ => exact sizeInv_of_sizesOk (s := (s.openDest .raw).startInflate.await .header) h fun _ => rfl
  | nop | hashEnc _ | hashDec _ | hashAvg _ | hashAspect _ => exact sizeInv_of_sizesOk h nofun

/-- Every action of the host keeps the sizes. -/
theorem sizeInv_keptByHost : KeptByHost State.SizeInv where
  queue _ _ _ h := h
  write {s} n v hb h := by
    obtain ⟨h1, h2, h3⟩ := sizesOk_of_sizeInv h
    obtain ⟨hw, hh, hcw, hch⟩ := write_sizes s.regs n v
    refine sizeInv_of_sizesOk ⟨h1, ?_, ?_⟩ fun h => Bool.noConfusion (hb.symm.trans h)
    · rw [hw, hh]
      exact h2
    · rw [hcw, hch]
      exact h3
  store _ _ _ _ _ h := h
  reset h := sizeInv_of_sizesOk ⟨h.1, nofun, nofun⟩ nofun
  refuse f u _ h := sizeInv_raise (sizesOk_of_sizeInv h) f u
  clear _ h := sizeInv_of_sizesOk ⟨h.1, nofun, nofun⟩ nofun
  start := sizeInv_start

/-- Settles O56: the sizes are kept by every action of the host and by every piece of an element. -/
theorem stepKeepsSizeInv : Obligations.StepKeepsSizeInv := by
  intro s t h he
  exact sizeInv_keptByHost.step
    (fun ha h he => element_preserves (fun _ _ _ => sizeInv_piece) 31 _ _ _ ha h he) h he

end Sys2Proof.Machine
end

section
/-! Commands as the host starts them: admission checks in order, and the commands of the sequencer, of U1, U2 and U4
(40_commands.md R140 to R157). -/

namespace Sys2Proof.Machine

/-! ### Admission (40_commands.md R142) -/

theorem firstFailing_pass (u : UnitId) {c : Bool} (h : c = true) (f : FaultCode) (rest : List (Bool × FaultCode)) :
    firstFailing u ((c, f) :: rest) = firstFailing u rest := if_pos h

theorem firstFailing_fail (u : UnitId) {c : Bool} (h : ¬ c = true) (f : FaultCode) (rest : List (Bool × FaultCode)) :
    firstFailing u ((c, f) :: rest) = some (f, u) := if_neg h

section

variable {s : State} {u : UnitId} {c : Bool} {f : FaultCode} {rest : List (Bool × FaultCode)} {run : Unit → State} {P : Prop}
  [Decidable P]

/-- The first check of an admission raises its fault, or the rest decides. -/
theorem command_check {R : State → Prop} (h : s.Ready) (hc : c = true ↔ ¬ P)
    (hrest : ¬ P → ∃ t, s.command (firstFailing u rest) run = .next t ∧ R t) :
    ∃ t, s.command (firstFailing u ((c, f) :: rest)) run = .next t ∧ if P then t = s.raise f u else R t := by
  by_cases hp : P
  · rw [firstFailing_fail u (fun h => hc.1 h hp)]
    exact ⟨_, command_refused h f u run, (if_pos hp).symm ▸ rfl⟩
  · obtain ⟨t, ht, hr⟩ := hrest hp
    rw [firstFailing_pass u (hc.2 hp)]
    exact ⟨t, ht, (if_neg hp).symm ▸ hr⟩

/-- The same, where the rest leaves a known state. -/
theorem command_check_eq {t : State} (h : s.Ready) (hc : c = true ↔ ¬ P)
    (hrest : ¬ P → s.command (firstFailing u rest) run = .next t) :
    s.command (firstFailing u ((c, f) :: rest)) run = .next (if P then s.raise f u else t) := by
  obtain ⟨r, hr, ht⟩ := command_check (R := (· = t)) (f := f) h hc fun hp => ⟨t, hrest hp, rfl⟩
  rw [hr]
  split at ht
  · rw [ht, if_pos ‹_›]
  · rw [ht, if_neg ‹_›]

end

/-! ### The commands as instructions -/

theorem exec_nop (s : State) : exec .nop s = s.command none fun _ => s.setPhase .done := rfl

theorem exec_clear (s : State) : exec .clear s = if s.phase.isBusy then .next s else .next s.clear := rfl

theorem exec_cmdReserved6To7 (op : BitVec 4) (s : State) :
    exec (.cmdReserved6To7 op) s = s.command (some (.badOpcode, .sequencer)) fun _ => s := rfl

theorem exec_cmdReserved12To15 (op : BitVec 4) (s : State) :
    exec (.cmdReserved12To15 op) s = s.command (some (.badOpcode, .sequencer)) fun _ => s := rfl

theorem exec_inflate (s : State) :
    exec .inflate s = s.command s.inflateAdmission fun _ => (s.openDest .raw).startInflate.await .header := rfl

theorem exec_recon (s : State) : exec .recon s = s.command s.reconAdmission fun _ =>
    ((s.openDest .tile).startPass (nextPass s.passes 0) 0).setPhase (.busy .scanline) := rfl

theorem exec_canvasInit (s : State) : exec .canvasInit s = s.command s.canvasInitAdmission fun _ => s.initCanvas := rfl

theorem exec_compose (s : State) : exec .compose s = s.command s.composeAdmission fun _ => s.startCompose := rfl

/-! ### The sequencer (40_commands.md R141, R145, R146) -/

/-- Settles O10: NOP has no admission check. -/
theorem nopCompletes : Obligations.NopCompletes := by
  simp only [Obligations.NopCompletes, exec_nop]
  exact ⟨fun _ h => command_runs h _, fun _ h => command_fault h _ _, _, command_runs (.inl rfl) _, rfl⟩

/-- Settles O11, by the one test CLEAR makes. -/
theorem clearCompletes : Obligations.ClearCompletes := by
  intro s h
  rw [exec_clear, h]
  rfl

/-- The reserved opcodes (40_commands.md R141). -/
theorem decodeCmd_reserved {w : Nat} (h : w % 16 ∈ [6, 7, 12, 13, 14, 15]) :
    ∃ op, decodeCmd w = .cmdReserved6To7 op ∨ decodeCmd w = .cmdReserved12To15 op := by
  simp only [List.mem_cons, List.not_mem_nil, or_false] at h
  unfold decodeCmd
  obtain h | h | h | h | h | h := h <;> rw [h]
  · exact ⟨_, .inl rfl⟩
  · exact ⟨_, .inl rfl⟩
  all_goals exact ⟨_, .inr rfl⟩

theorem exec_reserved {s : State} (h : s.Ready) (op : BitVec 4) :
    exec (.cmdReserved6To7 op) s = .next (s.raise .badOpcode .sequencer) ∧
    exec (.cmdReserved12To15 op) s = .next (s.raise .badOpcode .sequencer) :=
  ⟨(exec_cmdReserved6To7 op s).trans (command_refused h _ _ _), (exec_cmdReserved12To15 op s).trans (command_refused h _ _ _)⟩

/-- Settles O12: a `CMD` write executes what its low four bits decode to, and a reserved opcode is refused at admission. -/
theorem opcodeDecode : Obligations.OpcodeDecode := by
  refine ⟨fun s v u h => ?_, fun s => ?_, fun s v h hv => ?_, fun s op h => exec_reserved h op⟩
  · rw [hostWriteReg_cmd, hostWriteReg_cmd, ← decodeCmd_mod, h, decodeCmd_mod]
  · exact ⟨hostWriteReg_cmd s 0, hostWriteReg_cmd s 1, hostWriteReg_cmd s 2, hostWriteReg_cmd s 3, hostWriteReg_cmd s 4,
      hostWriteReg_cmd s 5, hostWriteReg_cmd s 8, hostWriteReg_cmd s 9, hostWriteReg_cmd s 10, hostWriteReg_cmd s 11⟩
  · rw [hostWriteReg_cmd]
    obtain ⟨op, hd | hd⟩ := decodeCmd_reserved hv <;> rw [hd]
    · exact (exec_reserved h op).1
    · exact (exec_reserved h op).2

/-! ### INFLATE (40_commands.md R147) -/

theorem payloadInRange_iff (s : State) : s.payloadInRange = true ↔
    s.regs.inOff.toNat ≤ s.regs.inLen.toNat ∧ s.regs.inLen.toNat ≤ s.params.inMax := by
  simp [State.payloadInRange]

/-- Settles O14, by INFLATE's one check. -/
theorem inflateStarts : Obligations.InflateStarts := by
  refine ⟨fun s h ho hl => ?_, fun s h hp => ?_⟩
  · have ha : s.inflateAdmission = none := firstFailing_pass _ ((payloadInRange_iff s).2 ⟨ho, hl⟩) _ _
    rw [exec_inflate, ha]
    exact command_runs h _
  · have ha : s.inflateAdmission = some (.paramRange, .inflate) := firstFailing_fail _ (mt (payloadInRange_iff s).1 hp) _ _
    rw [exec_inflate, ha]
    exact command_refused h _ _ _

/-! ### RECON (40_commands.md R148) -/

/-- The table of legal pairs (42_scanline.md R241). -/
theorem legalPair_iff (colorType depth : Nat) : legalPair colorType depth = true ↔ (colorType, depth) ∈ legalPairs := by
  unfold legalPair
  split <;> simp_all [legalPairs]

/-- The four transparency modes (42_scanline.md R242). -/
theorem legalTrMode_iff {colorType mode : Nat} (h : mode < 4) : legalTrMode colorType mode = true ↔
    (mode = 0 ∨ (mode = 1 ∧ colorType = 3) ∨ (mode = 2 ∧ colorType = 0) ∨ (mode = 3 ∧ colorType = 2)) := by
  interval_cases mode <;> simp [legalTrMode]

theorem transparencyOk_iff (s : State) : (legalTrMode s.colorType s.trMode && (s.colorType != 3 || s.regs.palN.toNat ≤ 256) &&
    (s.trMode != 1 || s.trN ≤ 256)) = true ↔ s.TransparencyOk := by
  have hm : s.trMode < 4 := Nat.mod_lt _ (by decide)
  simp only [State.TransparencyOk, Bool.and_eq_true, legalTrMode_iff hm, Bool.or_eq_true, bne_iff_ne, decide_eq_true_eq,
    imp_iff_not_or, and_assoc, ne_eq]

/-- RECON's first pass is the first of the list, and `PRIOR` has its row's size (42_scanline.md R240). -/
theorem startPass_first {s : State} (h : s.SizeOk s.regs.fW s.regs.fH) : s.startPass (nextPass s.passes 0) 0 = { s with
    u2 := { passIdx := 0, row := 0, pos := 0, cur := s.u2.cur,
            prior := List.replicate (s.rowbytes (if s.interlaced then (s.regs.fW.toNat + 7) / 8 else s.regs.fW.toNat)) 0 } } := by
  obtain ⟨hw, hh, -⟩ := h
  obtain ⟨p, rest, hl, hp, -⟩ := passList_first hw hh s.interlaced
  have h0 : nextPass s.passes 0 = 0 := nextPass_first hw hh s.interlaced
  have hps : s.passes = p :: rest := hl
  rw [h0, State.startPass, hps, ← hp]
  rfl

/-- Settles O31, check by check. -/
theorem reconAdmissionOrder : Obligations.ReconAdmissionOrder := by
  intro s h
  rw [exec_recon]
  refine command_check_eq h (by simp) fun _ => command_check_eq h (by rw [not_not, legalPair_iff]) fun _ =>
    command_check_eq h (by simp [and_assoc]) fun hsize => command_check_eq h (by rw [not_not, transparencyOk_iff]) fun _ =>
      command_check_eq h (by simp) fun _ => ?_
  have hf := startPass_first (s := s.openDest .tile) (not_not.1 hsize)
  refine (command_runs h _).trans (congrArg _ ?_)
  show ((s.openDest .tile).startPass (nextPass (s.openDest .tile).passes 0) 0).setPhase (.busy .scanline) = _
  rw [hf]
  rfl

/-! ### CANVAS_INIT (40_commands.md R149) -/

theorem initCanvas_byte {s : State} {k : Nat} (h : k < 4 * s.regs.imgW.toNat * s.regs.imgH.toNat) :
    s.initCanvas.byteAt .canvas k = 0 := by
  have hw := byteAt_writeBytes_in s .canvas 0 (List.replicate (4 * s.regs.imgW.toNat * s.regs.imgH.toNat) 0) k (by simpa using h)
  rw [Nat.zero_add, List.getElem_replicate] at hw
  exact hw

theorem initCanvas_byte_beyond {s : State} {k : Nat} (h : 4 * s.regs.imgW.toNat * s.regs.imgH.toNat ≤ k) :
    s.initCanvas.byteAt .canvas k = s.byteAt .canvas k :=
  byteAt_writeBytes_out s .canvas 0 (List.replicate (4 * s.regs.imgW.toNat * s.regs.imgH.toNat) 0) k (.inr (by simpa using h))

/-- Settles O38, by CANVAS_INIT's one check. -/
theorem canvasInitClears : Obligations.CanvasInitClears := by
  have hiff (s : State) : (1 ≤ s.regs.imgW.toNat && 1 ≤ s.regs.imgH.toNat &&
      4 * s.regs.imgW.toNat * s.regs.imgH.toNat ≤ s.params.pixMax) = true ↔ s.SizeOk s.regs.imgW s.regs.imgH := by
    simp [and_assoc]
  refine ⟨fun s h hs => ⟨s.initCanvas, ?_, fun _ => initCanvas_byte, fun _ => initCanvas_byte_beyond, rfl⟩, fun s h hs => ?_⟩
  · have ha : s.canvasInitAdmission = none := firstFailing_pass _ ((hiff s).2 hs) _ _
    rw [exec_canvasInit, ha]
    exact command_runs h _
  · have ha : s.canvasInitAdmission = some (.paramRange, .compositor) := firstFailing_fail _ (mt (hiff s).1 hs) _ _
    rw [exec_canvasInit, ha]
    exact command_refused h _ _ _

/-! ### COMPOSE (40_commands.md R150) -/

theorem byteAt_copyBuf_beyond (s : State) (src dst : Buf) {n k : Nat} (h : n ≤ k) :
    (s.copyBuf src dst n).byteAt dst k = s.byteAt dst k :=
  byteAt_writeBytes_out s dst 0 (s.bytesAt src 0 n) k (.inr (by simpa using h))

/-- The canvas saved, both destinations open (44_compositor.md R293). -/
def State.saved (s : State) : State := { s.copyBuf .canvas .save s.canvasBytes with
  valid := { s.valid with canvas := false, out := false, save := true }, phase := .busy .blend, pristine := false,
  fills := { s.fills with canvas := s.fills.canvas + 1, out := s.fills.out + 1 } }

/-- COMPOSE with restorePrevious begins with the canvas saved. -/
theorem startCompose_saves {s : State} (h : s.disposeMode = 2) : s.startCompose = s.saved := by
  rw [State.startCompose, if_pos h]
  rfl

/-- Another COMPOSE begins with no buffer changed. -/
theorem startCompose_keeps {s : State} (h : s.disposeMode ≠ 2) : s.startCompose = { s with
    valid := { s.valid with canvas := false, out := false }, phase := .busy .blend, pristine := false,
    fills := { s.fills with canvas := s.fills.canvas + 1, out := s.fills.out + 1 } } := by
  rw [State.startCompose, if_neg h]
  rfl

/-- `SAVE` holds the canvas. -/
theorem saved_byte (s : State) (k : Nat) :
    s.saved.byteAt .save k = if k < s.canvasBytes then s.byteAt .canvas k else s.byteAt .save k := by
  have hb : s.saved.byteAt .save k = (s.copyBuf .canvas .save s.canvasBytes).byteAt .save k := byteAt_congr rfl rfl
  rw [hb]
  split
  · exact byteAt_copyBuf s .canvas .save _ k ‹_›
  · exact byteAt_copyBuf_beyond s .canvas .save (Nat.le_of_not_lt ‹_›)

/-- Everything the start of COMPOSE leaves (40_commands.md R143, R150). -/
theorem startCompose_leaves (s : State) : s.startCompose = { s with
      valid := { s.valid with canvas := false, out := false, save := s.valid.save || s.disposeMode == 2 },
      phase := .busy .blend, pristine := false, buf := { s.buf with save := s.startCompose.buf.save },
      fills := { s.fills with canvas := s.fills.canvas + 1, out := s.fills.out + 1 } } ∧
    (s.disposeMode = 2 → (∀ k, k < s.canvasBytes → s.startCompose.byteAt .save k = s.byteAt .canvas k) ∧
      ∀ k, s.canvasBytes ≤ k → s.startCompose.byteAt .save k = s.byteAt .save k) ∧
    (s.disposeMode ≠ 2 → s.startCompose.buf.save = s.buf.save) := by
  refine ⟨?_, fun hd => ⟨fun k hk => ?_, fun k hk => ?_⟩, fun hd => ?_⟩
  · by_cases hd : s.disposeMode = 2
    · rw [startCompose_saves hd, hd, beq_self_eq_true, Bool.or_true]
      rfl
    · rw [startCompose_keeps hd, beq_false_of_ne hd, Bool.or_false]
  · rw [startCompose_saves hd, saved_byte, if_pos hk]
  · rw [startCompose_saves hd, saved_byte, if_neg (Nat.not_lt.2 hk)]
  · rw [startCompose_keeps hd]

/-- Settles O39, check by check. -/
theorem composeAdmissionOrder : Obligations.ComposeAdmissionOrder := by
  intro s h
  rw [exec_compose]
  exact command_check h (by simp) fun _ => command_check h (by simp) fun _ => command_check h (by simp) fun _ =>
    command_check h (by simp) fun _ => ⟨s.startCompose, command_runs h _, startCompose_leaves s⟩

/-! ### The pseudo-commands (40_commands.md R155 to R157) -/

/-- An action other than a `CMD` write is queued alone. -/
theorem stoppingItems_other {op : HostOp} (h : ∀ v, op ≠ .writeReg 0 v) (rest : List HostOp) :
    stoppingItems (op :: rest) = waiting op :: stoppingItems rest := by
  rw [stoppingItems.eq_def]
  dsimp only
  split
  · exact absurd rfl (h _)
  · rfl

/-- Settles O51: each pseudo-command is its list of actions, expanded. -/
theorem pseudoCommandsExpand : Obligations.PseudoCommandsExpand :=
  ⟨fun _ _ => rfl, fun _ _ => rfl, fun _ _ => rfl, rfl, fun _ _ => rfl, fun _ rest h => stoppingItems_other h rest, fun _ => rfl,
    fun _ _ h => if_pos h, fun _ _ h => if_neg h⟩

end Sys2Proof.Machine
end

section
/-! COMPOSE as a whole: what a blend mode leaves in `CANVAS` and `OUT`, pixel by pixel, and that restorePrevious undoes it
(44_compositor.md R291 to R301). -/

namespace Sys2Proof.Machine

/-! ### Pixels written and read (20_memory.md R77) -/

/-- A pixel depends on its four bytes. -/
theorem pixelAt_congr {s t : State} {b c : Buf} {o : Nat} (h : ∀ k, o ≤ k → k < o + 4 → t.byteAt b k = s.byteAt c k) :
    t.pixelAt b o = s.pixelAt c o := by
  rw [State.pixelAt, State.pixelAt, h o (by omega) (by omega), h (o + 1) (by omega) (by omega), h (o + 2) (by omega) (by omega),
    h (o + 3) (by omega) (by omega)]

/-- Byte `c` of pixel `i` in a row of pixels. -/
theorem pixels_getElem? : ∀ (px : List Pixel) (i : Nat) {c : Nat}, c < 4 →
    (px.flatMap Pixel.bytes)[4 * i + c]? = px[i]?.bind fun p => p.bytes[c]?
  | [], _, _, _ => rfl
  | p :: px, 0, c, h => by
    rw [List.flatMap_cons, List.getElem?_append_left (by simpa [Pixel.bytes] using h), Nat.mul_zero, Nat.zero_add]
    rfl
  | p :: px, i + 1, c, h => by
    rw [List.flatMap_cons, show 4 * (i + 1) + c = p.bytes.length + (4 * i + c) by simp [Pixel.bytes]; omega,
      List.getElem?_append_right (by omega), Nat.add_sub_cancel_left, List.getElem?_cons_succ]
    exact pixels_getElem? px i h

theorem byteAt_writeBytes_some {s : State} {b : Buf} {a j : Nat} {bs : List Byte} {x : Byte} (h : bs[j]? = some x) :
    (s.writeBytes b a bs).byteAt b (a + j) = x := by
  obtain ⟨hj, rfl⟩ := List.getElem?_eq_some_iff.1 h
  exact byteAt_writeBytes_in s b a bs j hj

/-- Pixels written in a row read back. -/
theorem pixelAt_writePixels {s : State} {b : Buf} {o i : Nat} {px : List Pixel} {p : Pixel} (h : px[i]? = some p) :
    (s.writeBytes b o (px.flatMap Pixel.bytes)).pixelAt b (o + 4 * i) = p := by
  have hb : ∀ {c : Nat} {x : Byte}, c < 4 → p.bytes[c]? = some x →
      (s.writeBytes b o (px.flatMap Pixel.bytes)).byteAt b (o + 4 * i + c) = x := fun hc hx => by
    rw [Nat.add_assoc]
    exact byteAt_writeBytes_some (by rw [pixels_getElem? px i hc, h]; exact hx)
  rw [State.pixelAt, hb (c := 1) (by decide) rfl, hb (c := 2) (by decide) rfl, hb (c := 3) (by decide) rfl]
  exact congrArg (fun x => (⟨x, p.g, p.b, p.a⟩ : Pixel)) (hb (c := 0) (by decide) rfl)

/-! ### The rectangle rewritten (44_compositor.md R291) -/

/-- The canvas replaced. -/
def State.withCanvas (s : State) (m : Memory) : State := { s with buf := { s.buf with canvas := m } }

/-- `f` looks, of the canvas, at the pixel it rewrites alone. -/
def State.Local (s : State) (f : State → Nat → Nat → Pixel) : Prop :=
  ∀ (m n : Memory) (i j : Nat),
    (s.withCanvas m).pixelAt .canvas (s.canvasIndex i j) = (s.withCanvas n).pixelAt .canvas (s.canvasIndex i j) →
    f (s.withCanvas m) j i = f (s.withCanvas n) j i

theorem canvasIndex_column (s : State) (i j : Nat) : s.canvasIndex i j = s.canvasIndex 0 j + 4 * i := by
  unfold State.canvasIndex
  ring

/-- The rectangle's rows do not overlap. -/
theorem canvasIndex_row {s : State} (h : s.RectInside) {j r : Nat} (hr : j < r) :
    s.canvasIndex 0 j + 4 * s.regs.fW.toNat ≤ s.canvasIndex 0 r := by
  have hrow : (s.regs.fY.toNat + j + 1) * s.regs.canvasW.toNat ≤ (s.regs.fY.toNat + r) * s.regs.canvasW.toNat :=
    Nat.mul_le_mul_right _ (by omega)
  rw [Nat.succ_mul] at hrow
  obtain ⟨hx, -⟩ := h
  unfold State.canvasIndex
  omega

/-- Row `j` of the rectangle rewritten. -/
def State.writeRow (s : State) (f : State → Nat → Nat → Pixel) (j : Nat) : State :=
  s.writeBytes .canvas (s.canvasIndex 0 j) ((List.range s.regs.fW.toNat).flatMap fun i => (f s j i).bytes)

theorem mapRows_succ (s : State) (f : State → Nat → Nat → Pixel) (n : Nat) :
    s.mapRows f (n + 1) = (s.writeRow f (s.regs.fH.toNat - (n + 1))).mapRows f n := rfl

/-- A byte outside a row is kept. -/
theorem writeRow_byte {s : State} (f : State → Nat → Nat → Pixel) {j k : Nat}
    (h : k < s.canvasIndex 0 j ∨ s.canvasIndex 0 j + 4 * s.regs.fW.toNat ≤ k) :
    (s.writeRow f j).byteAt .canvas k = s.byteAt .canvas k :=
  byteAt_writeBytes_out s .canvas _ _ k (by rwa [length_pixels])

/-- A pixel of a row is the new one. -/
theorem writeRow_pixel {s : State} (f : State → Nat → Nat → Pixel) {i j : Nat} (h : i < s.regs.fW.toNat) :
    (s.writeRow f j).pixelAt .canvas (s.canvasIndex i j) = f s j i := by
  have hrow : (List.range s.regs.fW.toNat).flatMap (fun i => (f s j i).bytes) =
      ((List.range s.regs.fW.toNat).map (f s j)).flatMap Pixel.bytes := (List.flatMap_map ..).symm
  have hp : ((List.range s.regs.fW.toNat).map (f s j))[i]? = some (f s j i) := by simp [h]
  rw [State.writeRow, hrow, canvasIndex_column s i j]
  exact pixelAt_writePixels hp

/-- Bytes outside the rows still to be rewritten are kept. -/
theorem mapRows_byte (f : State → Nat → Nat → Pixel) {k : Nat} : ∀ {n : Nat} {s : State}, n ≤ s.regs.fH.toNat →
    (∀ j, s.regs.fH.toNat - n ≤ j → j < s.regs.fH.toNat →
      k < s.canvasIndex 0 j ∨ s.canvasIndex 0 j + 4 * s.regs.fW.toNat ≤ k) →
    (s.mapRows f n).byteAt .canvas k = s.byteAt .canvas k
  | 0, _, _, _ => rfl
  | n + 1, s, hn, h => by
    have ih := mapRows_byte f (n := n) (s := s.writeRow f (s.regs.fH.toNat - (n + 1))) (Nat.le_of_succ_le hn)
      fun j hj => h j (Nat.le_trans (Nat.sub_le_sub_left (Nat.le_succ n) _) hj)
    rw [mapRows_succ, ih, writeRow_byte f (h _ le_rfl (by omega))]

/-- A pixel in a row still to be rewritten becomes the new one. -/
theorem mapRows_pixel {f : State → Nat → Nat → Pixel} {i j : Nat} : ∀ {n : Nat} {s : State}, s.RectInside → s.Local f →
    n ≤ s.regs.fH.toNat → i < s.regs.fW.toNat → s.regs.fH.toNat - n ≤ j → j < s.regs.fH.toNat →
    (s.mapRows f n).pixelAt .canvas (s.canvasIndex i j) = f s j i
  | 0, _, _, _, _, _, hj, hj' => absurd hj' (by omega)
  | n + 1, s, hrect, hf, hn, hi, hj, hj' => by
    rw [mapRows_succ]
    obtain rfl | hlt := Nat.eq_or_lt_of_le hj
    · rw [← writeRow_pixel f hi]
      refine pixelAt_congr fun k hk hk' => mapRows_byte f (Nat.le_of_succ_le hn) fun r hr hr' => .inl ?_
      have hr : s.regs.fH.toNat - n ≤ r := hr
      have hrow := canvasIndex_row hrect (show s.regs.fH.toNat - (n + 1) < r by omega)
      have hcol := canvasIndex_column s i (s.regs.fH.toNat - (n + 1))
      show k < s.canvasIndex 0 r
      omega
    · have hkeep : (s.writeRow f (s.regs.fH.toNat - (n + 1))).pixelAt .canvas (s.canvasIndex i j) =
          s.pixelAt .canvas (s.canvasIndex i j) := pixelAt_congr fun k hk _ => writeRow_byte f (.inr (by
        have hrow := canvasIndex_row hrect hlt
        have hcol := canvasIndex_column s i j
        omega))
      have hnew : f (s.writeRow f (s.regs.fH.toNat - (n + 1))) j i = f s j i := hf _ s.buf.canvas i j hkeep
      rw [← hnew]
      exact mapRows_pixel (s := s.writeRow f (s.regs.fH.toNat - (n + 1))) hrect hf (Nat.le_of_succ_le hn) hi
        (show s.regs.fH.toNat - n ≤ j by omega) hj'

/-- Bytes outside the rectangle are kept. -/
theorem mapRect_byte {s : State} (f : State → Nat → Nat → Pixel) {k : Nat} (h : s.OutsideRect k) :
    (s.mapRect f).byteAt .canvas k = s.byteAt .canvas k := by
  refine mapRows_byte f le_rfl fun j _ hj => ?_
  by_contra hk
  have hcol := canvasIndex_column s ((k - s.canvasIndex 0 j) / 4) j
  have hout := h ((k - s.canvasIndex 0 j) / 4) j (by omega) hj
  omega

/-- Every pixel of the rectangle is rewritten. -/
theorem mapRect_pixel {s : State} {f : State → Nat → Nat → Pixel} (hrect : s.RectInside) (hf : s.Local f) {i j : Nat}
    (hi : i < s.regs.fW.toNat) (hj : j < s.regs.fH.toNat) : (s.mapRect f).pixelAt .canvas (s.canvasIndex i j) = f s j i :=
  mapRows_pixel hrect hf le_rfl hi (by omega) hj

/-! ### A blend mode (44_compositor.md R294 to R297) -/

/-- The new pixel of the blend mode. -/
def State.mix (s : State) : State → Nat → Nat → Pixel :=
  if s.blendMode = 0 then fun s j i => s.tilePixel j i else fun s j i => overPixel (s.tilePixel j i) (s.canvasPixel j i)

theorem mix_local (s : State) : s.Local s.mix := by
  intro m n i j h
  unfold State.mix
  split
  · rfl
  · exact congrArg (overPixel (s.tilePixel j i)) h

theorem mix_pixel (s : State) (i j : Nat) : s.mix s j i =
    if s.blendMode = 0 then s.pixelAt .tile (s.tileIndex i j)
    else overPixel (s.pixelAt .tile (s.tileIndex i j)) (s.pixelAt .canvas (s.canvasIndex i j)) := by
  unfold State.mix
  split <;> rfl

/-- The rectangle rewritten, the snapshot taken. -/
def State.blended (s : State) (f : State → Nat → Nat → Pixel) : State := (s.mapRect f).snapshot.setPhase (.busy .dispose)

theorem decode_blend {s : State} (h : s.blendMode ≤ 1) :
    decode .blend s.regs.fCtl.toNat = .ok (if s.blendMode = 0 then .blendSource else .blendOver) := by
  have hw : s.regs.fCtl.toNat / 16 % 4 = s.blendMode := (blendMode_eq s).symm
  obtain h0 | h1 : s.blendMode = 0 ∨ s.blendMode = 1 := by omega
  · simp [decode, decodeBlend, hw, h0, s.regs.fCtl.isLt]
  · simp [decode, decodeBlend, hw, h1, s.regs.fCtl.isLt]

/-- A legal blend mode rewrites the rectangle and takes the snapshot. -/
theorem piece_blend {s : State} (h : s.blendMode ≤ 1) : s.piece .blend = .next (s.blended s.mix) := by
  rw [piece_of_fetch (s' := s) rfl (decode_blend h)]
  unfold State.mix
  split <;> rfl

/-- The snapshot of a canvas, `FRAME_CNT` being below its end (44_compositor.md R297). -/
theorem snapshot_eq {s : State} (h : s.regs.frameCnt.toNat + 1 < 2 ^ 32) : s.snapshot = { s.copyBuf .canvas .out s.canvasBytes with
    regs := { s.regs with outLen := reg s.canvasBytes, outW := s.regs.canvasW, outH := s.regs.canvasH,
                          frameCnt := reg (s.regs.frameCnt.toNat + 1) } } := if_pos h

theorem countFrame_byte (s : State) (b : Buf) (k : Nat) : s.countFrame.byteAt b k = s.byteAt b k := by
  obtain ⟨n, c, hc⟩ := countFrame_state s
  rw [hc]
  exact byteAt_congr rfl rfl

/-- The buffers after a snapshot: the canvas copied to `OUT`. -/
theorem snapshot_byte (s : State) (b : Buf) (k : Nat) :
    s.snapshot.byteAt b k = (s.copyBuf .canvas .out s.canvasBytes).byteAt b k :=
  (countFrame_byte _ b k).trans (byteAt_congr rfl rfl)

/-- Everything a blend mode leaves but the contents of `CANVAS` and `OUT`. -/
theorem blended_state {s : State} (f : State → Nat → Nat → Pixel) (h : s.regs.frameCnt.toNat + 1 < 2 ^ 32) :
    s.blended f = { s with
      buf := { s.buf with canvas := (s.blended f).buf.canvas, out := (s.blended f).buf.out }, phase := .busy .dispose,
      regs := { s.regs with outLen := reg s.canvasBytes, outW := s.regs.canvasW, outH := s.regs.canvasH,
                            frameCnt := reg (s.regs.frameCnt.toNat + 1) } } := by
  obtain ⟨m, hm⟩ := mapRect_canvas s f
  rw [State.blended, hm, snapshot_eq (s := { s with buf := { s.buf with canvas := m } }) h]
  rfl

theorem mapRect_canvasBytes (s : State) (f : State → Nat → Nat → Pixel) : (s.mapRect f).canvasBytes = s.canvasBytes := by
  obtain ⟨m, hm⟩ := mapRect_canvas s f
  rw [hm]
  rfl

theorem blended_out_byte {s : State} (f : State → Nat → Nat → Pixel) {k : Nat} (h : k < s.canvasBytes) :
    (s.blended f).byteAt .out k = (s.mapRect f).byteAt .canvas k :=
  (snapshot_byte (s.mapRect f) .out k).trans (byteAt_copyBuf _ _ _ _ _ (by rwa [mapRect_canvasBytes]))

/-! ### The dispose mode restorePrevious (44_compositor.md R300) -/

/-- The saved canvas put back, COMPOSE ended. -/
def State.restored (s : State) : State := ((s.copyBuf .save .canvas s.canvasBytes).setValid .save false).endCompose

theorem decode_restorePrevious {s : State} (h : s.disposeMode = 2) :
    decode .dispose s.regs.fCtl.toNat = .ok .disposeRestorePrevious := by
  have hw : s.regs.fCtl.toNat % 4 = 2 := (disposeMode_eq s).symm.trans h
  simp [decode, decodeDispose, hw, s.regs.fCtl.isLt]

theorem piece_restorePrevious {s : State} (h : s.disposeMode = 2) : s.piece .dispose = .next s.restored :=
  piece_of_fetch (s' := s) rfl (decode_restorePrevious h)

theorem restored_regs (s : State) : s.restored.regs = s.regs := by simp [State.restored, State.endCompose]

theorem restored_valid (s : State) : s.restored.valid = { s.valid with canvas := true, out := true, save := false } := rfl

theorem restored_byte (s : State) (b : Buf) (k : Nat) :
    s.restored.byteAt b k = (s.copyBuf .save .canvas s.canvasBytes).byteAt b k := byteAt_congr rfl rfl

theorem restored_canvas_byte {s : State} {k : Nat} (h : k < s.canvasBytes) : s.restored.byteAt .canvas k = s.byteAt .save k := by
  rw [restored_byte, byteAt_copyBuf _ _ _ _ _ h]

theorem restored_out_byte (s : State) (k : Nat) : s.restored.byteAt .out k = s.byteAt .out k := by
  rw [restored_byte, State.copyBuf, byteAt_writeBytes_other _ _ _ _ _ _ (by decide)]

/-! ### The whole command -/

/-- A step of a running unit that is one piece. -/
theorem step_of_piece {s t : State} {a : Await} (hs : s.script = []) (hp : s.phase = .busy a) (he : s.piece a = .next t)
    (hr : t.rest? = none) : step s = .next t :=
  (step_of_undisturbed (.inl hs) hp).trans (element_ends he hr 31)

/-- A `CMD` write of COMPOSE that is due and admitted. -/
theorem step_compose {s : State} {e : Bool} {v : Word} (hr : s.Ready) (hs : s.script = [{ early := e, op := .writeReg 0 v }])
    (hv : v.toNat % 16 = 5) (ha : s.composeAdmission = none) : step s = .next (State.startCompose { s with script := [] }) := by
  have hd : decode .cmd v.toNat = .ok .compose := by simp [decode, decodeCmd, hv, v.isLt]
  have hq : State.composeAdmission { s with script := [] } = none := ha
  rw [(step_runs_due hs (.inr (isBusy_of_ready hr))).1 v .compose rfl hd, exec_compose, hq]
  exact command_runs (s := { s with script := [] }) hr _

/-- What a whole COMPOSE with restorePrevious leaves: the canvas saved, blended, copied to `OUT` and put back. -/
def State.composed (s : State) : State := (s.saved.blended s.saved.mix).restored

section

variable {s : State} (hn : s.regs.frameCnt.toNat + 1 < 2 ^ 32)
include hn

theorem saved_blended : s.saved.blended s.saved.mix = { s.saved with
    buf := { s.saved.buf with canvas := (s.saved.blended s.saved.mix).buf.canvas, out := (s.saved.blended s.saved.mix).buf.out },
    phase := .busy .dispose,
    regs := { s.regs with outLen := reg s.canvasBytes, outW := s.regs.canvasW, outH := s.regs.canvasH,
                          frameCnt := reg (s.regs.frameCnt.toNat + 1) } } :=
  blended_state (s := s.saved) s.saved.mix hn

/-- The canvas is back, byte for byte (44_compositor.md R300). -/
theorem composed_canvas_byte {k : Nat} (h : k < s.canvasBytes) : s.composed.byteAt .canvas k = s.byteAt .canvas k := by
  have hb := saved_blended hn
  have hc : (s.saved.blended s.saved.mix).canvasBytes = s.canvasBytes := by rw [hb]; rfl
  have hs : (s.saved.blended s.saved.mix).byteAt .save k = s.saved.byteAt .save k := by rw [hb]; exact byteAt_congr rfl rfl
  rw [State.composed, restored_canvas_byte (hc.symm ▸ h), hs, saved_byte, if_pos h]

theorem composed_regs : s.composed.regs = { s.regs with
    outLen := reg s.canvasBytes, outW := s.regs.canvasW, outH := s.regs.canvasH,
    frameCnt := reg (s.regs.frameCnt.toNat + 1) } := by
  rw [State.composed, restored_regs, saved_blended hn]

theorem composed_valid : s.composed.valid = { s.valid with canvas := true, out := true, save := false } := by
  rw [State.composed, restored_valid, saved_blended hn]
  rfl

end

/-- `OUT` is the canvas as it was blended (44_compositor.md R297). -/
theorem composed_out_byte {s : State} {k : Nat} (h : k < s.canvasBytes) :
    s.composed.byteAt .out k = (s.saved.mapRect s.saved.mix).byteAt .canvas k := by
  rw [State.composed, restored_out_byte]
  exact blended_out_byte (s := s.saved) s.saved.mix h

/-- The frame's pixels are pixels of the canvas (44_compositor.md R291). -/
theorem canvasIndex_lt {s : State} (h : s.RectInside) {i j : Nat} (hi : i < s.regs.fW.toNat) (hj : j < s.regs.fH.toNat) :
    s.canvasIndex i j + 4 ≤ s.canvasBytes := by
  have hrow := canvasIndex_inside h hj
  have hcol := canvasIndex_column s i j
  omega

/-- In `OUT` the frame's pixels are the blended ones. -/
theorem composed_out_pixel {s : State} (h : s.RectInside) {i j : Nat} (hi : i < s.regs.fW.toNat) (hj : j < s.regs.fH.toNat) :
    s.composed.pixelAt .out (s.canvasIndex i j) = s.saved.mix s.saved j i := by
  have hlt := canvasIndex_lt h hi hj
  rw [← mapRect_pixel (s := s.saved) h (mix_local s.saved) hi hj]
  exact pixelAt_congr fun k _ hk => composed_out_byte (hk.trans_le hlt)

/-- The three steps of a COMPOSE with restorePrevious (log entry 18). -/
theorem step_composed {s : State} {e : Bool} {v : Word} (hr : s.Ready) (hs : s.script = [{ early := e, op := .writeReg 0 v }])
    (hv : v.toNat % 16 = 5) (ha : s.composeAdmission = none) (hd : s.disposeMode = 2)
    (hn : s.regs.frameCnt.toNat + 1 < 2 ^ 32) : ∃ t1 t2, step s = .next t1 ∧ step t1 = .next t2 ∧
      step t2 = .next (State.composed { s with script := [] }) := by
  have hb := saved_blended (s := { s with script := [] }) hn
  refine ⟨_, _, (step_compose hr hs hv ha).trans (congrArg _ (startCompose_saves hd)),
    step_of_piece rfl rfl (piece_blend (modes_of_composeAdmission ha).1) rfl, ?_⟩
  exact step_of_piece (congrArg State.script hb) rfl
    (piece_restorePrevious ((congrArg State.disposeMode hb).trans hd)) rfl

/-- A byte of `OUT` outside the frame is the canvas's, and the frame's pixels are blended (44_compositor.md R291, R297). -/
theorem composed_out {s : State} (h : s.RectInside) :
    (∀ k, k < s.canvasBytes → s.OutsideRect k → s.composed.byteAt .out k = s.byteAt .canvas k) ∧
    (∀ x y, x < s.regs.fW.toNat → y < s.regs.fH.toNat → s.composed.pixelAt .out (s.canvasIndex x y) =
      if s.blendMode = 0 then s.pixelAt .tile (s.tileIndex x y)
      else overPixel (s.pixelAt .tile (s.tileIndex x y)) (s.pixelAt .canvas (s.canvasIndex x y))) := by
  refine ⟨fun k hk ho => ?_, fun x y hx hy => (composed_out_pixel h hx hy).trans (mix_pixel s.saved x y)⟩
  rw [composed_out_byte hk, mapRect_byte (s := s.saved) _ ho]
  exact byteAt_congr rfl rfl

/-- Settles O43: the canvas goes to `SAVE`, is blended and copied to `OUT`, and comes back from `SAVE`. -/
theorem restorePreviousRestores : Obligations.RestorePreviousRestores := by
  intro s e v hinv hr hs hv ha hd hn
  obtain ⟨-, -, -, ⟨⟨-, -, -, -, -, -, -, hmax⟩, -, hcanvas, -⟩, -⟩ := hinv
  obtain ⟨-, -, hsize⟩ := hcanvas (valid_of_composeAdmission ha).2
  have hbytes : s.canvasBytes < 2 ^ 32 := (hsize.trans hmax).trans_lt (by decide)
  obtain ⟨t1, t2, h1, h2, h3⟩ := step_composed hr hs hv ha hd hn
  obtain ⟨hout, hpix⟩ := composed_out (s := { s with script := [] }) (rect_of_composeAdmission ha)
  have hregs := composed_regs (s := { s with script := [] }) hn
  refine ⟨t1, t2, _, h1, h2, h3, rfl, composed_valid (s := { s with script := [] }) hn,
    fun k hk => composed_canvas_byte (s := { s with script := [] }) hn hk, ?_, ?_, hout, hpix⟩
  · rw [hregs]
    exact reg_toNat hn
  · rw [hregs]
    exact reg_toNat hbytes

end Sys2Proof.Machine
end

section
/-! The commands of U5: the header query HASH_ASPECT, the encoder HASH_ENC and the decoder HASH_DEC (40_commands.md R151, R152, R154;
45_dct_hash.md R320, R340 to R350, R361). -/

namespace Sys2Proof.Machine

/-! ### The commands as instructions -/

/-- A result of `w` by `h` pixels in `OUT`, the command complete. -/
def State.output (s : State) (bytes : List Byte) (w h : Nat) : State := ((s.openDest .out).putOut bytes w h).complete .out

theorem exec_hashEnc (s : State) : exec .hashEnc s = s.command s.hashEncAdmission fun _ =>
    s.output (hashEncodeWith s.params.numerics s.regs.hW.toNat s.regs.hH.toNat s.hashPixels) 0 0 := rfl

theorem exec_hashDec (s : State) : exec .hashDec s = s.command s.hashDecAdmission fun _ =>
    s.output ((hashDecodeWith s.params.numerics s.header s.hashBytes).flatMap Pixel.bytes) s.header.outW s.header.outH := rfl

theorem exec_hashAspect (s : State) : exec .hashAspect s = s.command s.hashAspectAdmission fun _ =>
    ((s.openDest .res).putRes s.header.lx s.header.ly 0 0).complete .res := rfl

/-! ### The header of the payload (30_encoding.md R115) -/

theorem payloadByte_lt (s : State) (i : Nat) : s.payloadByte i < 256 := BitVec.isLt _

theorem header_grid (s : State) : s.header.grid = s.payloadByte 3 % 8 := by
  show (s.payloadByte 3 + 256 * s.payloadByte 4) % 2 ^ 3 = s.payloadByte 3 % 8
  omega

theorem header_hasAlpha (s : State) : s.header.hasAlpha = decide (s.payloadByte 2 / 128 % 2 = 1) := by
  have h0 := payloadByte_lt s 0
  have h1 := payloadByte_lt s 1
  have hbit : (s.payloadByte 0 + 256 * s.payloadByte 1 + 65536 * s.payloadByte 2) / 2 ^ 23 % 2 = s.payloadByte 2 / 128 % 2 := by omega
  exact congrArg (· == 1) hbit

theorem header_isLandscape (s : State) : s.header.isLandscape = decide (s.payloadByte 4 / 128 % 2 = 1) := by
  have h3 := payloadByte_lt s 3
  have hbit : (s.payloadByte 3 + 256 * s.payloadByte 4) / 2 ^ 15 % 2 = s.payloadByte 4 / 128 % 2 := by omega
  exact congrArg (· == 1) hbit

/-- The check that the header's grid is not 0. -/
theorem gridCheck_iff (s : State) : (s.header.grid != 0) = true ↔ ¬ s.payloadByte 3 % 8 = 0 := by
  rw [bne_iff_ne, header_grid]

/-- The check that the payload holds `n` bytes. -/
theorem lengthCheck_iff (s : State) (n : Nat) :
    decide (n ≤ s.payloadLen) = true ↔ ¬ s.regs.inLen.toNat - s.regs.inOff.toNat < n := by
  rw [decide_eq_true_iff, Nat.not_lt]
  rfl

/-! ### HASH_ASPECT (40_commands.md R154, 45_dct_hash.md R361) -/

/-- Settles O45, check by check. -/
theorem hashAspectCompletes : Obligations.HashAspectCompletes := by
  rintro s grid cap landscape h rfl rfl rfl
  have hcap : gridCap s.header.hasAlpha = if s.payloadByte 2 / 128 % 2 = 1 then 5 else 7 := by
    rw [header_hasAlpha, gridCap]
    simp only [decide_eq_true_eq]
  rw [exec_hashAspect]
  refine command_check_eq h (by rw [not_not, payloadInRange_iff]) fun _ => command_check_eq h (lengthCheck_iff s 5) fun _ =>
    command_check_eq h (gridCheck_iff s) fun _ => ?_
  rw [HashHeader.lx, HashHeader.ly, hcap, header_grid, header_isLandscape]
  exact command_runs h _

/-! ### A result in `OUT` (10_state.md R35) -/

/-- Everything a result in `OUT` changes. -/
theorem output_state (s : State) (bytes : List Byte) (w h : Nat) : s.output bytes w h = { s with
    regs := { s.regs with outLen := reg bytes.length, outW := reg w, outH := reg h },
    buf := { s.buf with out := (s.output bytes w h).buf.out }, valid := { s.valid with out := true }, phase := .done,
    pristine := false, fills := { s.fills with out := s.fills.out + 1 } } := rfl

theorem output_byteAt (s : State) (bytes : List Byte) (w h k : Nat) :
    (s.output bytes w h).byteAt .out k = (s.writeBytes .out 0 bytes).byteAt .out k := byteAt_congr rfl rfl

theorem output_byte (s : State) {bytes : List Byte} (w h : Nat) {k : Nat} (hk : k < bytes.length) :
    (s.output bytes w h).byteAt .out k = bytes.getD k 0 := by
  have hw := byteAt_writeBytes_in s .out 0 bytes k hk
  rw [Nat.zero_add] at hw
  rw [output_byteAt, hw, List.getD_eq_getElem _ _ hk]

theorem output_byte_beyond (s : State) {bytes : List Byte} (w h : Nat) {k : Nat} (hk : bytes.length ≤ k) :
    (s.output bytes w h).byteAt .out k = s.byteAt .out k := by
  rw [output_byteAt, byteAt_writeBytes_out _ _ _ _ _ (.inr (by rwa [Nat.zero_add]))]

/-- A pixel of an image in `OUT`. -/
theorem output_pixel (s : State) {px : List Pixel} (w h : Nat) {i : Nat} {p : Pixel} (hp : px[i]? = some p) :
    (s.output (px.flatMap Pixel.bytes) w h).pixelAt .out (4 * i) = p := by
  rw [← pixelAt_writePixels (s := s) (b := .out) (o := 0) hp, Nat.zero_add]
  exact pixelAt_congr fun k _ _ => output_byteAt s _ w h k

/-! ### HASH_ENC (40_commands.md R151) -/

section

variable {s : State}

/-- The sides are checked before anything else (60_exceptions.md R384). -/
theorem hashEncAdmission_dim (h : 100 < s.regs.hW.toNat ∨ 100 < s.regs.hH.toNat) : s.hashEncAdmission = some (.hashDim, .dct) :=
  firstFailing_fail _ (by simp; omega) _ _

theorem hashEncAdmission_of_dim (hw : s.regs.hW.toNat ≤ 100) (hh : s.regs.hH.toNat ≤ 100) : s.hashEncAdmission =
    firstFailing .dct [(1 ≤ s.regs.hW.toNat && 1 ≤ s.regs.hH.toNat, .paramRange),
      (s.payloadInRange && s.payloadLen == 4 * s.regs.hW.toNat * s.regs.hH.toNat, .paramRange)] :=
  firstFailing_pass _ (by simp [hw, hh]) _ _

end

/-- Two checks with the same fault are one. -/
theorem firstFailing_pair (u : UnitId) (c d : Bool) (f : FaultCode) :
    firstFailing u [(c, f), (d, f)] = if c && d then none else some (f, u) := by
  cases c <;> cases d <;> rfl

/-- The payload of an image, whole (40_commands.md R151). -/
theorem imagePayload_iff (s : State) : ((1 ≤ s.regs.hW.toNat && 1 ≤ s.regs.hH.toNat) &&
    (s.payloadInRange && s.payloadLen == 4 * s.regs.hW.toNat * s.regs.hH.toNat)) = true ↔
    1 ≤ s.regs.hW.toNat ∧ 1 ≤ s.regs.hH.toNat ∧ s.regs.inOff.toNat ≤ s.regs.inLen.toNat ∧
      s.regs.inLen.toNat ≤ s.params.inMax ∧ s.regs.inLen.toNat - s.regs.inOff.toNat = 4 * s.regs.hW.toNat * s.regs.hH.toNat := by
  simp [State.payloadInRange, State.payloadLen, and_assoc]

/-- Settles O46: the sides, then the payload, then the hash in `OUT`. -/
theorem hashEncCompletes : Obligations.HashEncCompletes := by
  refine ⟨fun s h hdim => ?_, fun s h hw hh hp => ?_, fun s bytes h hw hw' hh hh' ho hl hlen hex hoth => ?_⟩
  · rw [exec_hashEnc, hashEncAdmission_dim hdim]
    exact command_refused h _ _ _
  · rw [exec_hashEnc, hashEncAdmission_of_dim hw hh, firstFailing_pair, if_neg (mt (imagePayload_iff s).1 hp)]
    exact command_refused h _ _ _
  · obtain rfl : bytes = hashEncodeWith s.params.numerics s.regs.hW.toNat s.regs.hH.toNat s.hashPixels := by
      unfold hashEncodeWith
      split
      · exact hex ‹_›
      · exact hoth ‹_›
    have hbytes := hashEncodeWith_length_le s.params.numerics s.regs.hW.toNat s.regs.hH.toNat s.hashPixels
    refine ⟨s.output _ 0 0, ?_, reg_toNat (by omega), fun k hk => output_byte s 0 0 hk, fun k hk => output_byte_beyond s 0 0 hk,
      output_state s _ 0 0⟩
    rw [exec_hashEnc, hashEncAdmission_of_dim hw' hh', firstFailing_pair,
      if_pos ((imagePayload_iff s).2 ⟨hw, hh, ho, hl, hlen⟩)]
    exact command_runs h _

end Sys2Proof.Machine
end

section
/-! HASH_DEC (40_commands.md R152, 45_dct_hash.md R342 to R350): the picture's size and pixels, and the colour of a hash whose scales
are 0. -/

namespace Sys2Proof.Machine

/-! ### The size of the picture (45_dct_hash.md R341, R342) -/

/-- The shorter side is at least 5: the sides are at most 1 to 7. -/
theorem side32_ge {a b : Nat} (ha : 1 ≤ a) (hb : 1 ≤ b) (hb' : b ≤ 7) : 5 ≤ side32 a b :=
  (Nat.le_div_iff_mul_le (by omega)).2 (by omega)

/-- A grid that is not 0 gives sides of 1 to 7. -/
theorem header_sides {hd : HashHeader} (hg : 1 ≤ hd.grid) (hg' : hd.grid ≤ 7) :
    (1 ≤ hd.lx ∧ hd.lx ≤ 7) ∧ 1 ≤ hd.ly ∧ hd.ly ≤ 7 := by
  have hcap := gridCap_bounds hd.hasAlpha
  unfold HashHeader.lx HashHeader.ly
  split
  · exact ⟨hcap, hg, hg'⟩
  · exact ⟨⟨hg, hg'⟩, hcap⟩

theorem outSize_landscape {hd : HashHeader} (h : hd.ly < hd.lx) :
    hd.outW = 32 ∧ hd.outH = (64 * hd.ly + hd.lx) / (2 * hd.lx) := ⟨if_pos h, if_pos h⟩

theorem outSize_portrait {hd : HashHeader} (h : hd.lx ≤ hd.ly) :
    hd.outH = 32 ∧ hd.outW = (64 * hd.lx + hd.ly) / (2 * hd.ly) := ⟨if_neg h.not_gt, if_neg h.not_gt⟩

/-- Both sides are at least 5 and the longer one is 32. -/
theorem outSize_ge {hd : HashHeader} (hg : 1 ≤ hd.grid) (hg' : hd.grid ≤ 7) :
    5 ≤ hd.outW ∧ 5 ≤ hd.outH ∧ max hd.outW hd.outH = 32 := by
  obtain ⟨⟨hx, hx'⟩, hy, hy'⟩ := header_sides hg hg'
  obtain ⟨hw, hh⟩ := outSize_le hd
  rcases lt_or_ge hd.ly hd.lx with h | h
  · have h5 := side32_ge hy hx hx'
    obtain ⟨e, f⟩ := outSize_landscape h
    rw [e] at hw ⊢
    exact ⟨by decide, f ▸ h5, max_eq_left hh⟩
  · have h5 := side32_ge hx hy hy'
    obtain ⟨e, f⟩ := outSize_portrait h
    rw [e] at hh ⊢
    exact ⟨f ▸ h5, by decide, max_eq_right hw⟩

theorem header_grid_bounds {s : State} (h : ¬ s.payloadByte 3 % 8 = 0) : 1 ≤ s.header.grid ∧ s.header.grid ≤ 7 := by
  rw [header_grid]
  omega

/-! ### The pixels in row-major order (45_dct_hash.md R350) -/

/-- The element of a table at a column and a row. -/
theorem rowMajor_getElem? {α : Type} (f : Nat → Nat → α) {w h x y : Nat} (hx : x < w) (hy : y < h) :
    ((List.range h).flatMap fun y => (List.range w).map (f y))[y * w + x]? = some (f y x) := by
  induction h with
  | zero => exact absurd hy (Nat.not_lt_zero y)
  | succ h ih =>
    have hlen : ((List.range h).flatMap fun y => (List.range w).map (f y)).length = h * w := by simp [List.length_flatMap]
    rw [List.range_succ, List.flatMap_append]
    rcases Nat.lt_succ_iff_lt_or_eq.1 hy with hlt | rfl
    · rw [List.getElem?_append_left, ih hlt]
      rw [hlen]
      calc y * w + x < (y + 1) * w := by rw [Nat.succ_mul]; omega
        _ ≤ h * w := Nat.mul_le_mul_right w hlt
    · rw [List.getElem?_append_right (by omega), hlen, Nat.add_sub_cancel_left]
      simp [hx]

theorem hashDecode_pixel {N : Type} (ns : NumberSystem N) (hd : HashHeader) (bytes : List Byte) {x y : Nat} (hx : x < hd.outW)
    (hy : y < hd.outH) : (hashDecode ns hd bytes)[y * hd.outW + x]? =
      some (decodePixel ns (spectraOf ns hd bytes) hd.outW hd.outH x y) :=
  rowMajor_getElem? (fun y x => decodePixel ns (spectraOf ns hd bytes) hd.outW hd.outH x y) hx hy

/-! ### The command -/

theorem length_pixelBytes (px : List Pixel) : (px.flatMap Pixel.bytes).length = 4 * px.length := by
  simp [List.length_flatMap, Pixel.bytes, Nat.mul_comm]

theorem output_regs (s : State) {px : List Pixel} {w h : Nat} (hpx : px.length = h * w) (hw : w ≤ 32) (hh : h ≤ 32) :
    (s.output (px.flatMap Pixel.bytes) w h).regs.outW.toNat = w ∧ (s.output (px.flatMap Pixel.bytes) w h).regs.outH.toNat = h ∧
      (s.output (px.flatMap Pixel.bytes) w h).regs.outLen.toNat = 4 * w * h := by
  have hlen : (px.flatMap Pixel.bytes).length = 4 * w * h := by
    rw [length_pixelBytes, hpx]
    ring
  have hle : 4 * w * h ≤ 4 * 32 * 32 := Nat.mul_le_mul (Nat.mul_le_mul_left 4 hw) hh
  exact ⟨reg_toNat (by omega), reg_toNat (by omega), (reg_toNat (by omega)).trans hlen⟩

/-! ### A channel without AC (45_dct_hash.md R343, R344) -/

/-- A channel whose scale is 0 has its DC value everywhere, over the exact reals. -/
theorem spectrum_value_zero {w h : Nat} (hw : 1 ≤ w) (hh : 1 ≤ h) (bytes : List Byte) (st k0 nx ny x y : Nat) (dc : Rat) :
    (spectrum exactReals bytes st k0 nx ny (.ofRat dc) (.ofRat 0)).value exactReals w h x y = .ofRat dc := by
  have hterms : ∀ l : List ((Nat × Nat) × Nat), (l.map fun c => (c.1, exactReals.mul (exactReals.sub (exactReals.div
      (exactReals.ofNat (acNibbleAt bytes st (k0 + c.2))) (exactReals.frac 15 2)) (exactReals.ofNat 1)) (.ofRat 0))) =
      l.map fun c => (c.1, ExactReal.ofRat 0) := by
    refine fun l => List.map_congr_left fun c _ => ?_
    rw [frac_exactReals 15 (by decide), ofNat_exactReals, exactReals_div _ (by norm_num), ofNat_exactReals, exactReals_sub,
      exactReals_mul, mul_zero]
  have hzero : ∀ v : Nat × Nat, exactReals.mul (exactReals.mul (exactReals.mul (.ofRat 0) (exactReals.ofNat 2))
      (exactReals.wave w v.1 x)) (exactReals.wave h v.2 y) = .ofRat 0 := by
    intro v
    obtain ⟨a, ha⟩ := wave_formed hw v.1 x
    obtain ⟨b, hb⟩ := wave_formed hh v.2 y
    rw [ha, hb, ofNat_exactReals, exactReals_mul, zero_mul]
    exact (congrArg (ExactReal.mul · _) (zero_mul_quot a)).trans (zero_mul_quot b)
  simp only [Spectrum.value, spectrum, hterms, List.map_map, Function.comp_def, hzero, sum_map_exactReals]
  rw [exactReals_add]
  simp

/-- The pixel of four channels that are rational numbers (45_dct_hash.md R346). -/
theorem decodePixel_ofRat {sp : Spectra ExactReal} {w h x y : Nat} {l p q r g b a : Rat}
    (hl : sp.l.value exactReals w h x y = .ofRat l) (hp : sp.p.value exactReals w h x y = .ofRat p)
    (hq : sp.q.value exactReals w h x y = .ofRat q) (ha : sp.a.value exactReals w h x y = .ofRat a)
    (hb : b = l - 2 / 3 * p) (hr : r = (3 * l - b + q) / 2) (hg : g = r - q) :
    decodePixel exactReals sp w h x y =
      ⟨BitVec.ofInt 8 (255 * max 0 (min 1 r)).floor, BitVec.ofInt 8 (255 * max 0 (min 1 g)).floor,
       BitVec.ofInt 8 (255 * max 0 (min 1 b)).floor, BitVec.ofInt 8 (255 * max 0 (min 1 a)).floor⟩ := by
  subst hg hr hb
  simp only [decodePixel, hl, hp, hq, ha, frac_exactReals 2 (b := 3) (by decide), ofNat_exactReals, exactReals_mul, exactReals_sub,
    exactReals_add, exactReals_div _ (two_ne_zero (α := Rat)), byte_exactReals, Nat.cast_ofNat]

theorem offset_exactReals (n : Nat) : exactReals.offset n = .ofRat (n / (63 / 2) - 1) := by
  rw [NumberSystem.offset, frac_exactReals 63 (by decide), ofNat_exactReals, exactReals_div _ (by norm_num), ofNat_exactReals,
    exactReals_sub]
  norm_num

theorem frac_zero_exactReals {n : Nat} (h : n ≠ 0) : exactReals.frac 0 n = .ofRat 0 := by
  rw [frac_exactReals 0 h, Nat.cast_zero, zero_div]

/-- The boosted scale of a chroma channel, 0. -/
theorem boosted_zero : exactReals.mul (exactReals.frac 5 4) (exactReals.frac 0 63) = .ofRat 0 := by
  rw [frac_zero_exactReals (by decide), frac_exactReals 5 (by decide), exactReals_mul, mul_zero]

/-- The alpha channel of a hash whose alpha scale is 0 (45_dct_hash.md R340, R343). -/
theorem alpha_value_zero {hd : HashHeader} {bytes : List Byte} {w h : Nat} (hw : 1 ≤ w) (hh : 1 ≤ h)
    (ha : hd.hasAlpha = true → (bytes.getD 5 0).toNat / 16 = 0) (x y : Nat) :
    (spectraOf exactReals hd bytes).a.value exactReals w h x y =
      .ofRat (if hd.hasAlpha then (((bytes.getD 5 0).toNat % 16 : Nat) : Rat) / 15 else 1) := by
  cases hal : hd.hasAlpha with
  | false =>
    simp only [spectraOf, hal]
    exact (exactReals_add _ _).trans (by simp)
  | true =>
    simp only [spectraOf, hal, ha hal, if_true]
    rw [frac_zero_exactReals (by decide), frac_exactReals _ (by decide), spectrum_value_zero hw hh]
    rfl

/-- A hash whose scales are 0 is one colour (45_dct_hash.md R346). -/
theorem decodePixel_zeroScales (hd : HashHeader) (bytes : List Byte) (w h x y : Nat) (l p q r g b a : Rat) (hw : 1 ≤ w) (hh : 1 ≤ h)
    (hls : hd.lScale = 0) (hps : hd.pScale = 0) (hqs : hd.qScale = 0)
    (has : hd.hasAlpha = true → (bytes.getD 5 0).toNat / 16 = 0)
    (hl : l = (hd.lDc : Rat) / 63) (hp : p = (hd.pDc : Rat) / (63 / 2) - 1) (hq : q = (hd.qDc : Rat) / (63 / 2) - 1)
    (hb : b = l - 2 / 3 * p) (hr : r = (3 * l - b + q) / 2) (hg : g = r - q)
    (ha : a = (if hd.hasAlpha then (((bytes.getD 5 0).toNat % 16 : Nat) : Rat) / 15 else 1)) :
    decodePixel exactReals (spectraOf exactReals hd bytes) w h x y =
      ⟨BitVec.ofInt 8 (255 * max 0 (min 1 r)).floor, BitVec.ofInt 8 (255 * max 0 (min 1 g)).floor,
       BitVec.ofInt 8 (255 * max 0 (min 1 b)).floor, BitVec.ofInt 8 (255 * max 0 (min 1 a)).floor⟩ := by
  refine decodePixel_ofRat ?_ ?_ ?_ (ha ▸ alpha_value_zero hw hh has x y) hb hr hg
  · simp only [spectraOf, hls, hl]
    rw [frac_zero_exactReals (by decide), frac_exactReals _ (by decide), spectrum_value_zero hw hh]
    rfl
  · simp only [spectraOf, hps, hp]
    rw [boosted_zero, offset_exactReals, spectrum_value_zero hw hh]
  · simp only [spectraOf, hqs, hq]
    rw [boosted_zero, offset_exactReals, spectrum_value_zero hw hh]

/-! ### The vectors -/

/-- The header of R366's hash: the scales are 0, no alpha. -/
theorem flatHash_header {bytes : List Byte} (h : bytes = [0x1D, 0xCB, 0x02, 0x07, 0x00] ++ List.replicate 18 0x88 ++ [0x08]) :
    let hd := headerOf bytes
    (hd.lScale = 0 ∧ hd.pScale = 0 ∧ hd.qScale = 0 ∧ hd.hasAlpha = false) ∧ hd.lDc = 29 ∧ hd.pDc = 44 ∧ hd.qDc = 44 := by
  subst h
  decide

/-- The hash of R366 is one colour, that of its DC fields. -/
theorem flatHash_pixel {bytes : List Byte} (h : bytes = [0x1D, 0xCB, 0x02, 0x07, 0x00] ++ List.replicate 18 0x88 ++ [0x08])
    (x y : Nat) : decodePixel exactReals (spectraOf exactReals (headerOf bytes) bytes) 32 32 x y = ⟨0xC9, 0x64, 0x31, 0xFF⟩ := by
  obtain ⟨⟨hls, hps, hqs, hal⟩, hl, hp, hq⟩ := flatHash_header h
  rw [decodePixel_zeroScales _ bytes 32 32 x y _ _ _ _ _ _ _ (by decide) (by decide) hls hps hqs (fun ha => absurd (hal.symm.trans ha)
    (by decide)) rfl rfl rfl rfl rfl rfl rfl, hl, hp, hq, hal,
    if_neg Bool.false_ne_true]
  decide +kernel

/-- Two pixels of HASH-3's hash, whose scales are not 0. -/
theorem hash3_pixels {bytes : List Byte} (h : bytes =
    [0x20, 0x08, 0x42, 0xB7, 0x2C, 0x86, 0x09, 0x89, 0x96, 0x68, 0x69, 0x88, 0x88, 0x98, 0x86, 0x09, 0x89, 0x69, 0x48, 0xF8, 0x8A,
     0x8F, 0xD8, 0x08]) :
    decodePixel exactReals (spectraOf exactReals (headerOf bytes) bytes) 32 32 0 0 = ⟨0xC5, 0x00, 0x00, 0xFF⟩ ∧
    decodePixel exactReals (spectraOf exactReals (headerOf bytes) bytes) 32 32 31 0 = ⟨0x00, 0x62, 0x00, 0xFF⟩ := by
  subst h
  decide +kernel

/-- Settles O48: the checks, then the size and the pixels of the picture; the colour of zero scales and the vectors. -/
theorem hashDecCompletes : Obligations.HashDecCompletes := by
  refine ⟨fun s h => ?_, decodePixel_zeroScales, fun _ hb x y _ _ => flatHash_pixel hb x y, fun _ hb => hash3_pixels hb⟩
  rw [exec_hashDec]
  refine command_check h (by rw [not_not, payloadInRange_iff]) fun _ => command_check h (lengthCheck_iff s 5) fun _ =>
    command_check h (gridCheck_iff s) fun hg => command_check h (lengthCheck_iff s s.header.need) fun _ =>
      ⟨_, command_runs h _, ?_⟩
  obtain ⟨hg1, hg7⟩ := header_grid_bounds hg
  obtain ⟨hw5, hh5, hmax⟩ := outSize_ge hg1 hg7
  obtain ⟨hw, hh⟩ := outSize_le s.header
  have hlen := hashDecodeWith_length s.params.numerics s.header s.hashBytes
  obtain ⟨eW, eH, eL⟩ := output_regs s hlen hw hh
  rw [eW, eH, eL]
  refine ⟨hw5, hh5, hmax, outSize_landscape, outSize_portrait, rfl, fun x y hx hy => ⟨fun hn => ?_, fun hn => ?_⟩, fun k hk => ?_,
    output_state s _ _ _⟩
  · rw [hn]
    exact output_pixel s _ _ (hashDecode_pixel exactReals s.header s.hashBytes hx hy)
  · rw [hn]
    exact output_pixel s _ _ (hashDecode_pixel Config.numerics s.header s.hashBytes hx hy)
  · exact output_byte_beyond s _ _ (by rwa [length_pixelBytes, hlen, Nat.mul_comm s.header.outH, ← Nat.mul_assoc])

end Sys2Proof.Machine
end

section
/-! Canonical Huffman codes: the codes of a table that is not oversubscribed fit their lengths and none begins another, so
that the bit-serial decoder undoes them (41_inflate.md R177, R178). -/

namespace Sys2Proof.Machine

/-! ### Where the codes of one length lie (41_inflate.md R177) -/

/-- The code of a symbol of length `len` is one of the `count[len]` codes from `first[len]`. -/
theorem codeOf_bounds {t : List Nat} {sym len : Nat} (h : t[sym]? = some len) (hl : len ≠ 0) :
    firstCode t len ≤ codeOf t sym ∧ codeOf t sym < firstCode t len + lengthCount t len := by
  obtain ⟨hlt, hget⟩ := List.getElem?_eq_some_iff.1 h
  have hsplit : t = t.take sym ++ t[sym] :: t.drop (sym + 1) := by simp
  have hcount : ((t.take sym).filter (· == len)).length < (t.filter (· == len)).length := by
    conv_rhs => rw [hsplit]
    simp [hget]
  simp only [codeOf, lengthCount, if_neg hl, List.getD, h, Option.getD_some]
  omega

/-- The codes of longer symbols begin above those of length `len`, extended to their length. -/
theorem firstCode_add (t : List Nat) (len : Nat) : ∀ n,
    (firstCode t len + lengthCount t len) * 2 ^ (n + 1) ≤ firstCode t (len + (n + 1))
  | 0 => by rw [pow_one]; rfl
  | n + 1 => calc
      (firstCode t len + lengthCount t len) * 2 ^ (n + 1 + 1)
        = (firstCode t len + lengthCount t len) * 2 ^ (n + 1) * 2 := by ring
      _ ≤ (firstCode t (len + (n + 1)) + lengthCount t (len + (n + 1))) * 2 :=
        Nat.mul_le_mul_right 2 ((firstCode_add t len n).trans (Nat.le_add_right _ _))

/-- No code is the beginning of a longer one. -/
theorem codeOf_not_beginning {t : List Nat} {sym other len n : Nat} (h : t[sym]? = some (len + (n + 1)))
    (ho : t[other]? = some len) (hl : len ≠ 0) : codeOf t other < codeOf t sym / 2 ^ (n + 1) := by
  have hother := (codeOf_bounds ho hl).2
  have hsym := (codeOf_bounds h (by omega)).1
  refine (Nat.le_div_iff_mul_le (Nat.two_pow_pos _)).2 (calc
    (codeOf t other + 1) * 2 ^ (n + 1) ≤ (firstCode t len + lengthCount t len) * 2 ^ (n + 1) := Nat.mul_le_mul_right _ hother
    _ ≤ firstCode t (len + (n + 1)) := firstCode_add t len n
    _ ≤ codeOf t sym := hsym)

/-! ### The Kraft sum (41_inflate.md R177) -/

/-- The part of the Kraft sum that symbols of length at most `b` make. -/
def kraftUpTo (t : List Nat) (b : Nat) : Nat := (t.map fun l => if l = 0 ∨ b < l then 0 else 2 ^ (15 - l)).sum

theorem kraftUpTo_le (t : List Nat) (b : Nat) : kraftUpTo t b ≤ kraft t := by
  refine List.sum_le_sum fun l _ => ?_
  by_cases hl : l = 0
  · rw [if_pos (.inl hl), if_pos hl]
  · rw [if_neg hl]
    split
    · exact Nat.zero_le _
    · exact le_rfl

theorem kraftUpTo_zero (t : List Nat) : kraftUpTo t 0 = 0 := by
  refine List.sum_eq_zero fun x hx => ?_
  obtain ⟨l, -, rfl⟩ := List.mem_map.1 hx
  exact if_pos (by omega)

/-- The symbols of one length more. -/
theorem kraftUpTo_succ (b : Nat) : ∀ t : List Nat,
    kraftUpTo t (b + 1) = kraftUpTo t b + lengthCount t (b + 1) * 2 ^ (15 - (b + 1))
  | [] => by simp [kraftUpTo, lengthCount]
  | l :: t => by
    have ih := kraftUpTo_succ b t
    simp only [kraftUpTo, lengthCount, Nat.succ_ne_zero, if_false, List.map_cons, List.sum_cons, List.filter_cons] at ih ⊢
    rw [ih]
    obtain hl | rfl | hl : l < b + 1 ∨ l = b + 1 ∨ b + 1 < l := by omega
    · have hb : (l == b + 1) = false := by simp; omega
      simp only [hb, Bool.false_eq_true, if_false, show ¬ b + 1 < l by omega, show ¬ b < l by omega, Nat.add_assoc]
    · simp only [beq_self_eq_true, if_true, List.length_cons, Nat.lt_irrefl, Nat.lt_add_one, or_true, or_false, Nat.succ_ne_zero,
        if_false]
      ring
    · have hb : (l == b + 1) = false := by simp; omega
      simp only [hb, Bool.false_eq_true, if_false, show b + 1 < l by omega, show b < l by omega, or_true, if_true, Nat.zero_add]

/-- The codes up to length `b`, extended to 15 bits, fill their part of the Kraft sum. -/
theorem firstCode_kraft (t : List Nat) : ∀ b, b ≤ 15 →
    (firstCode t b + lengthCount t b) * 2 ^ (15 - b) = kraftUpTo t b
  | 0, _ => by rw [kraftUpTo_zero]; simp [firstCode, lengthCount]
  | b + 1, hb => by
    have ih := firstCode_kraft t b (by omega)
    have hp : 2 ^ (15 - b) = 2 * 2 ^ (15 - (b + 1)) := by rw [← pow_succ', show 15 - (b + 1) + 1 = 15 - b by omega]
    rw [kraftUpTo_succ, ← ih, hp, firstCode]
    ring

/-- A code of a table that is not oversubscribed fits its length. -/
theorem codeOf_lt {t : List Nat} {sym len : Nat} (ht : oversubscribed t = false) (h : t[sym]? = some len) (hl : len ≠ 0)
    (hlen : len ≤ 15) : codeOf t sym < 2 ^ len := by
  have hk : kraft t ≤ 2 ^ 15 := Nat.le_of_not_lt (of_decide_eq_false ht)
  have hfit : (firstCode t len + lengthCount t len) * 2 ^ (15 - len) ≤ 2 ^ len * 2 ^ (15 - len) := by
    rw [firstCode_kraft t len hlen, ← pow_add, show len + (15 - len) = 15 by omega]
    exact (kraftUpTo_le t len).trans hk
  exact (codeOf_bounds h hl).2.trans_le (Nat.le_of_mul_le_mul_right hfit (Nat.two_pow_pos _))

/-! ### The bits read (20_memory.md R73) -/

/-- The next `n` bits of the stream as a code, the first one most significant. -/
def State.codeRead (s : State) : Nat → Nat
  | 0 => 0
  | n + 1 => s.codeRead n * 2 + s.streamBit (s.regs.ipos.toNat + n)

/-- The bits of a code that was read. -/
theorem streamBit_of_codeRead (s : State) : ∀ {n k : Nat}, k < n →
    s.streamBit (s.regs.ipos.toNat + k) = s.codeRead n / 2 ^ (n - 1 - k) % 2
  | n + 1, k, hk => by
    have hb := streamBit_lt s (s.regs.ipos.toNat + n)
    obtain rfl | hk := Nat.eq_or_lt_of_le (Nat.le_of_lt_succ hk)
    · simp only [State.codeRead, Nat.add_sub_cancel, Nat.sub_self, pow_zero, Nat.div_one]
      omega
    · have hd : s.codeRead (n + 1) / 2 = s.codeRead n := by simp only [State.codeRead]; omega
      rw [streamBit_of_codeRead s hk, show n + 1 - 1 - k = n - 1 - k + 1 by omega, pow_succ', ← Nat.div_div_eq_div_mul, hd]

/-- Where the stream goes on with the code `c`, what is read of it is its beginning. -/
theorem codeRead_of_bits {s : State} {c n : Nat} (hc : c < 2 ^ n)
    (h : ∀ k, k < n → s.streamBit (s.regs.ipos.toNat + k) = c / 2 ^ (n - 1 - k) % 2) :
    ∀ m, m ≤ n → s.codeRead m = c / 2 ^ (n - m)
  | 0, _ => (Nat.div_eq_of_lt hc).symm
  | m + 1, hm => by
    have hd : c / 2 ^ (n - m) = c / 2 ^ (n - (m + 1)) / 2 := by
      rw [Nat.div_div_eq_div_mul, ← pow_succ, show n - (m + 1) + 1 = n - m by omega]
    rw [State.codeRead, codeRead_of_bits hc h m (by omega), h m (by omega), hd, show n - 1 - m = n - (m + 1) by omega]
    omega

/-! ### The decoder's loop (41_inflate.md R178) -/

section
variable {s : State} {t : List Nat} {fuel len : Nat}

/-- One bit more is read. -/
theorem decodeLoop_reads (hs : s.StreamOk) (hb : s.BitsLeft (len + 1)) :
    (s.skip len).getbit = .ok (s.streamBit (s.regs.ipos.toNat + len)) (s.skip (len + 1)) := by
  have hl : s.BitsLeft len := by simp only [State.BitsLeft] at hb ⊢; omega
  rw [getbit_ok ((skip_bitsLeft hs hl).2 hb), skip_ipos hs hl, skip_skip (lt_of_le_of_lt hl hs.2)]
  rfl

/-- The code read is a symbol's. -/
theorem decodeLoop_found {sym : Nat} (hs : s.StreamOk) (hb : s.BitsLeft (len + 1))
    (h : symbolOf t (len + 1) (s.codeRead (len + 1)) = some sym) :
    State.decodeLoop t (fuel + 1) len (s.codeRead len) (s.skip len) = .ok sym (s.skip (len + 1)) := by
  rw [State.codeRead] at h
  rw [State.decodeLoop, decodeLoop_reads hs hb, Res_bind_ok]
  simp only [h]

/-- The code read is no symbol's. -/
theorem decodeLoop_goes_on (hs : s.StreamOk) (hb : s.BitsLeft (len + 1))
    (h : symbolOf t (len + 1) (s.codeRead (len + 1)) = none) :
    State.decodeLoop t (fuel + 1) len (s.codeRead len) (s.skip len) =
      State.decodeLoop t fuel (len + 1) (s.codeRead (len + 1)) (s.skip (len + 1)) := by
  rw [State.codeRead] at h
  rw [State.decodeLoop, decodeLoop_reads hs hb, Res_bind_ok]
  simp only [h]
  rfl

/-- The payload ends inside the code. -/
theorem decodeLoop_exhausted (hs : s.StreamOk) (hl : s.BitsLeft len) (hb : ¬ s.BitsLeft (len + 1)) (code : Nat) :
    State.decodeLoop t (fuel + 1) len code (s.skip len) = .raised ((s.skip len).raise .inputExhausted .inflate) := by
  rw [State.decodeLoop, getbit_raised (fun h => hb ((skip_bitsLeft hs hl).1 h)), Res_bind_raised]

end

/-! ### Decoding a code -/

theorem getElem?_of_getD {t : List Nat} {sym : Nat} (h : sym < t.length) : t[sym]? = some (t.getD sym 0) := by simp [h]

theorem le_foldl_max {l : Nat} : ∀ {t : List Nat} {a : Nat}, l ≤ a ∨ l ∈ t → l ≤ t.foldl max a
  | [], _, h => h.resolve_right List.not_mem_nil
  | x :: t, a, h => by
    refine le_foldl_max (t := t) ?_
    obtain h | h := h
    · exact .inl (le_max_of_le_left h)
    · exact (List.mem_cons.1 h).imp (fun h => h.trans_le (le_max_right a x)) id

/-- No length is above the largest. -/
theorem le_maxLen {t : List Nat} {l : Nat} (h : l ∈ t) : l ≤ maxLen t := le_foldl_max (.inr h)

/-- From inside a symbol's code the loop reads the rest of it, no shorter code being in the way. -/
theorem decodeLoop_code {s : State} {t : List Nat} {sym len : Nat} (hsym : t[sym]? = some len) (hs : s.StreamOk)
    (hb : s.BitsLeft len) (hread : ∀ m, m ≤ len → s.codeRead m = codeOf t sym / 2 ^ (len - m)) :
    ∀ fuel m, m < len → len ≤ m + fuel → State.decodeLoop t fuel m (s.codeRead m) (s.skip m) = .ok sym (s.skip len)
  | 0, m, hm, hf => absurd hf (by omega)
  | fuel + 1, m, hm, hf => by
    have hbm : s.BitsLeft (m + 1) := by simp only [State.BitsLeft] at hb ⊢; omega
    obtain rfl | hm := Nat.eq_or_lt_of_le (Nat.succ_le_of_lt hm)
    · refine decodeLoop_found hs hbm ((Laws.symbolOf_eq_some ..).2 ⟨hsym, ?_⟩)
      simp [hread (m + 1) le_rfl]
    · obtain ⟨n, rfl⟩ : ∃ n, len = m + 1 + (n + 1) := ⟨len - (m + 1) - 1, by omega⟩
      have hnone : symbolOf t (m + 1) (s.codeRead (m + 1)) = none := by
        refine Option.eq_none_iff_forall_ne_some.2 fun other ho => ?_
        obtain ⟨hother, hcode⟩ := (Laws.symbolOf_eq_some ..).1 ho
        have := codeOf_not_beginning hsym hother (Nat.succ_ne_zero m)
        rw [hcode, hread (m + 1) (by omega), Nat.add_sub_cancel_left] at this
        exact absurd this (Nat.lt_irrefl _)
      rw [decodeLoop_goes_on hs hbm hnone]
      exact decodeLoop_code hsym hs hb hread fuel (m + 1) hm (by omega)

/-- Settles O22: the codes fit their lengths, so the bits read are the code's beginning, and no shorter code is one. -/
theorem huffmanDecodeInvertsCode : Obligations.HuffmanDecodeInvertsCode := by
  intro s t sym ht h15 hlt hpos hs hb hbits
  have hsym := getElem?_of_getD hlt
  have hmem := List.mem_of_getElem? hsym
  have hread := codeRead_of_bits (codeOf_lt ht hsym hpos.ne' (h15 _ hmem)) hbits
  have := decodeLoop_code hsym hs hb hread (maxLen t) 0 hpos (by rw [Nat.zero_add]; exact le_maxLen hmem)
  rwa [skip_zero] at this

/-- The next bits of `s` are the code of `sym`, and `s'` stands just behind them. -/
def State.ReadsCode (s : State) (t : List Nat) (sym : Nat) (s' : State) : Prop :=
  ∃ n, 0 < n ∧ t[sym]? = some n ∧ s.BitsLeft n ∧ s' = s.skip n ∧ codeOf t sym = s.codeRead n

/-- No code was found in `n` bits: NO_CODE after them, or INPUT_EXHAUSTED when there are fewer. -/
def State.ReadsNoCode (s : State) (n : Nat) (s' : State) : Prop :=
  (s.BitsLeft n ∧ s' = (s.skip n).raise .noCode .inflate) ∨
  (¬ s.BitsLeft n ∧ s' = (s.skip (8 * s.regs.inLen.toNat - s.regs.ipos.toNat)).raise .inputExhausted .inflate)

/-- What the loop answers is a symbol whose code is what was read. -/
theorem decodeLoop_sound {s : State} {t : List Nat} (hs : s.StreamOk) : ∀ fuel len, s.BitsLeft len →
    (State.decodeLoop t fuel len (s.codeRead len) (s.skip len)).Ends (s.ReadsCode t) (s.ReadsNoCode (len + fuel))
  | 0, len, hl => .raised (.inl ⟨hl, rfl⟩)
  | fuel + 1, len, hl => by
    by_cases hb : s.BitsLeft (len + 1)
    · cases h : symbolOf t (len + 1) (s.codeRead (len + 1)) with
      | some sym =>
        obtain ⟨hsym, hcode⟩ := (Laws.symbolOf_eq_some ..).1 h
        exact decodeLoop_found hs hb h ▸ .ok ⟨len + 1, Nat.succ_pos len, hsym, hb, rfl, hcode⟩
      | none =>
        rw [decodeLoop_goes_on hs hb h, show len + (fuel + 1) = len + 1 + fuel by omega]
        exact decodeLoop_sound hs fuel (len + 1) hb
    · rw [decodeLoop_exhausted hs hl hb]
      simp only [State.BitsLeft] at hl hb
      refine .raised (.inr ⟨by simp only [State.BitsLeft]; omega, ?_⟩)
      rw [show 8 * s.regs.inLen.toNat - s.regs.ipos.toNat = len by omega]

theorem decodeSymbol_sound {s : State} (t : List Nat) (hs : s.StreamOk) :
    (s.decodeSymbol t).Ends (s.ReadsCode t) (s.ReadsNoCode (maxLen t)) := by
  have h := decodeLoop_sound (t := t) hs (maxLen t) 0 hs.1
  rwa [Nat.zero_add, skip_zero] at h

/-- Settles O23, by the ways the decoder's loop ends. -/
theorem huffmanDecodeSound : Obligations.HuffmanDecodeSound := by
  refine ⟨fun s s' t sym hs h => ?_, fun s s' t hs h => ?_⟩
  · have hd := decodeSymbol_sound t hs
    rw [h] at hd
    obtain ⟨⟨n, hpos, hsym, hb, rfl, hcode⟩⟩ := hd
    obtain rfl : t.getD sym 0 = n := by simp [List.getD, hsym]
    exact ⟨(List.getElem?_eq_some_iff.1 hsym).1, hpos, hb, rfl, fun k hk => hcode ▸ streamBit_of_codeRead s hk⟩
  · have hd := decodeSymbol_sound t hs
    rw [h] at hd
    cases hd with
    | raised hd => exact hd

end Sys2Proof.Machine
end

section
/-! The headers of blocks: what is read of them, the fields latched on the way, and the bodies that take no bits of their own
(41_inflate.md R180, R184 to R186, R193, R195). -/

namespace Sys2Proof.Machine

/-! ### Bits read where a field has been latched -/

theorem Res_bind_of_ok {α β : Type} {r : Res α} {a : α} {s : State} {k : α → State → Res β} (h : r = .ok a s) :
    r.bind k = k a s := h ▸ rfl

theorem Res_bind_of_raised {α β : Type} {r : Res α} {s : State} {k : α → State → Res β} (h : r = .raised s) :
    r.bind k = .raised s := h ▸ rfl

theorem Res_outcome_of_raised {r : Res Unit} {s : State} (h : r = .raised s) : r.outcome = .next s := h ▸ rfl

theorem streamField_lt (s : State) : ∀ n k, s.streamField k n < 2 ^ n
  | 0, _ => Nat.one_pos
  | n + 1, k => by
    have hb := streamBit_lt s k
    have hf := streamField_lt s n (k + 1)
    rw [State.streamField, Nat.pow_succ]
    omega

/-- The stream depends on `IN` and the count of resets alone. -/
theorem streamField_congr {s t : State} (hb : t.buf = s.buf) (he : t.epoch = s.epoch) :
    ∀ n k, t.streamField k n = s.streamField k n
  | 0, _ => rfl
  | n + 1, k => by
    rw [State.streamField, State.streamField, streamField_congr hb he n, State.streamBit, State.streamBit,
      byteAt_congr (by rw [hb]) he]

section
variable {s : State} {m n : Nat} (u : InflateUnit)

/-- `getbits` after `m` bits, with U1's state changed meanwhile. -/
theorem getbits_latched (h : s.StreamOk) (hb : s.BitsLeft (m + n)) : State.getbits { s.skip m with u1 := u } n =
    .ok (s.streamField (s.regs.ipos.toNat + m) n) { s.skip (m + n) with u1 := u } := by
  have hm : s.BitsLeft m := by simp only [State.BitsLeft] at hb ⊢; omega
  have hs : State.StreamOk { s.skip m with u1 := u } := skip_streamOk h hm
  rw [getbits_ok hs ((skip_bitsLeft h hm).2 hb), streamField_congr (s := s) (t := { s.skip m with u1 := u }) rfl rfl,
    ← skip_skip (lt_of_le_of_lt hm h.2), ← skip_ipos h hm]
  rfl

/-- `getbits` after `m` bits when the payload ends first. -/
theorem getbits_latched_raised (h : s.StreamOk) (hm : s.BitsLeft m) (hb : ¬ s.BitsLeft (m + n)) :
    State.getbits { s.skip m with u1 := u } n = .raised
      (State.raise { s.skip (8 * s.regs.inLen.toNat - s.regs.ipos.toNat) with u1 := u } .inputExhausted .inflate) := by
  have hs : State.StreamOk { s.skip m with u1 := u } := skip_streamOk h hm
  have hr : m + (8 * s.regs.inLen.toNat - (s.regs.ipos.toNat + m)) = 8 * s.regs.inLen.toNat - s.regs.ipos.toNat := by
    simp only [State.BitsLeft] at hm
    omega
  rw [getbits_raised hs (fun h' => hb ((skip_bitsLeft h hm).1 h')), ← hr, ← skip_skip (lt_of_le_of_lt hm h.2), ← skip_ipos h hm]
  rfl

end

/-! ### A block header (41_inflate.md R180) -/

section
variable {s : State}

/-- `BFINAL` latched from the next bit. -/
def State.latchFinal (s : State) : InflateUnit := { s.u1 with bfinal := BitVec.ofNat 1 (s.streamBit s.regs.ipos.toNat) }

theorem fetch_header (h : s.StreamOk) (hb : s.BitsLeft 3) : s.fetch .header = .ok
    (.hdr, s.streamBit s.regs.ipos.toNat + 2 * s.streamField (s.regs.ipos.toNat + 1) 2) { s.skip 3 with u1 := s.latchFinal } := by
  have h1 : s.BitsLeft 1 := by simp only [State.BitsLeft] at hb ⊢; omega
  have h2 := getbits_latched (m := 1) (n := 2) s.latchFinal h hb
  rw [State.fetch, getbit_ok h1, Res_bind_ok]
  exact Res_bind_of_ok h2

/-- A header that the payload ends in: `BFINAL` is latched if it was there. -/
theorem fetch_header_exhausted (h : s.StreamOk) (hb : ¬ s.BitsLeft 3) : s.fetch .header = .raised
    (State.raise { s.skip (8 * s.regs.inLen.toNat - s.regs.ipos.toNat) with
      u1 := if s.BitsLeft 1 then s.latchFinal else s.u1 } .inputExhausted .inflate) := by
  by_cases h1 : s.BitsLeft 1
  · have h2 := getbits_latched_raised (m := 1) (n := 2) s.latchFinal h h1 hb
    rw [State.fetch, getbit_ok h1, Res_bind_ok, if_pos h1]
    exact Res_bind_of_raised h2
  · have hz : 8 * s.regs.inLen.toNat - s.regs.ipos.toNat = 0 := by
      simp only [State.BitsLeft] at h1
      omega
    rw [State.fetch, getbit_raised h1, if_neg h1, hz, skip_zero]
    rfl

/-- The value read of a header decodes to its two fields (30_encoding.md R102). -/
theorem decode_hdr_bits {b t : Nat} (hb : b < 2) (ht : t < 4) :
    decode .hdr (b + 2 * t) = .ok (.hdr (BitVec.ofNat 1 b) (BitVec.ofNat 2 t)) := by
  have := decode_hdr (BitVec.ofNat 1 b) (BitVec.ofNat 2 t)
  rwa [BitVec.toNat_ofNat, BitVec.toNat_ofNat, Nat.mod_eq_of_lt hb, Nat.mod_eq_of_lt ht] at this

theorem piece_header (h : s.StreamOk) (hb : s.BitsLeft 3) : s.piece .header = .next s.afterHeader := by
  rw [piece_of_fetch (fetch_header h hb) (decode_hdr_bits (streamBit_lt s _) (streamField_lt s 2 _))]
  rfl

/-- The header's element goes on with the body of a fixed or illegal block (log entry 3). -/
theorem rest?_afterHeader (s : State) : s.afterHeader.rest? =
    if s.streamField (s.regs.ipos.toNat + 1) 2 = 1 ∨ s.streamField (s.regs.ipos.toNat + 1) 2 = 3 then some .body else none := by
  have hlt := streamField_lt s 2 (s.regs.ipos.toNat + 1)
  show (if BitVec.ofNat 2 (s.streamField (s.regs.ipos.toNat + 1) 2) = 1 ∨
    BitVec.ofNat 2 (s.streamField (s.regs.ipos.toNat + 1) 2) = 3 then _ else _) = _
  generalize s.streamField (s.regs.ipos.toNat + 1) 2 = w at hlt
  interval_cases w <;> rfl

end

/-- Settles O15, by whether the header's three bits are there. -/
theorem headerStep : Obligations.HeaderStep := by
  refine ⟨fun _ _ _ => rfl, fun s h hb => ⟨piece_header h hb, fun hs hp ht => ?_⟩, fun s h hb => ?_⟩
  · refine step_of_piece hs hp (piece_header h hb) ((rest?_afterHeader s).trans (if_neg ?_))
    simp only [List.mem_cons, List.not_mem_nil, or_false] at ht
    omega
  · have hf := fetch_header_exhausted h hb
    exact ⟨_, piece_of_raised hf, fun hs hp => step_of_piece hs hp (piece_of_raised hf) (rest?_of_raised hf), rfl, rfl, rfl, rfl⟩

/-! ### The bodies (41_inflate.md R184 to R186) -/

/-- Where a header is followed by a body in the same element, the step is the body's meaning after it. -/
theorem step_header_body {s t : State} {i : Instr} (hs : s.script = []) (hp : s.phase = .busy .header) (h : s.StreamOk)
    (hb : s.BitsLeft 3)
    (hr : s.streamField (s.regs.ipos.toNat + 1) 2 = 1 ∨ s.streamField (s.regs.ipos.toNat + 1) 2 = 3)
    (hd : decode .body (s.afterHeader.u1.bfinal.toNat + 2 * s.afterHeader.u1.btype.toNat) = .ok i)
    (he : exec i s.afterHeader = .next t) (ht : t.rest? = none) : step s = exec i s.afterHeader := by
  have hbody : s.afterHeader.piece .body = .next t := (piece_of_fetch (a := .body) rfl hd).trans he
  rw [step_of_undisturbed (.inl hs) hp, element_goes_on (piece_header h hb) ((rest?_afterHeader s).trans (if_pos hr)),
    element_ends hbody ht, he]

theorem decode_body_fixed : ∀ b : BitVec 1, decode .body (b.toNat + 2 * (BitVec.ofNat 2 1).toNat) = .ok .fixed := by decide

theorem decode_body_illegal : ∀ b : BitVec 1, decode .body (b.toNat + 2 * (BitVec.ofNat 2 3).toNat) = .ok .btypeIllegal := by
  decide

/-! ### The fixed code (30_encoding.md R110) -/

theorem fixedLl_toNat : fixedLl.map BitVec.toNat =
    List.replicate 144 8 ++ List.replicate 112 9 ++ List.replicate 24 7 ++ List.replicate 8 8 := by
  simp only [fixedLl, List.map_append, List.map_replicate]
  rfl

theorem fixedD_toNat : fixedD.map BitVec.toNat = List.replicate 32 5 := by
  simp only [fixedD, List.map_replicate]
  rfl

theorem length_filter_take_replicate (n c sym l : Nat) :
    (((List.replicate n c).take sym).filter (· == l)).length = if c = l then min sym n else 0 := by
  rw [List.take_replicate, List.filter_replicate]
  simp only [beq_iff_eq, apply_ite List.length, List.length_replicate, List.length_nil]

/-- How many symbols before `sym` have length `l`, run by run. -/
theorem fixedLl_before (sym l : Nat) : (((fixedLl.map BitVec.toNat).take sym).filter (· == l)).length =
    (if 8 = l then min sym 144 else 0) + (if 9 = l then min (sym - 144) 112 else 0) +
      (if 7 = l then min (sym - 256) 24 else 0) + if 8 = l then min (sym - 280) 8 else 0 := by
  rw [fixedLl_toNat]
  simp only [List.take_append, List.filter_append, List.length_append, length_filter_take_replicate, List.length_replicate]

theorem fixedLl_getD {sym : Nat} (h : sym < 288) : (fixedLl.map BitVec.toNat).getD sym 0 =
    if sym < 144 then 8 else if sym < 256 then 9 else if sym < 280 then 7 else 8 := by
  rw [fixedLl_toNat]
  simp only [List.getD_eq_getElem?_getD, List.getElem?_append, List.getElem?_replicate, List.length_append, List.length_replicate]
  split_ifs <;> grind

theorem lengthCount_fixedLl (l : Nat) : lengthCount (fixedLl.map BitVec.toNat) l =
    if l = 8 then 152 else if l = 9 then 112 else if l = 7 then 24 else 0 := by
  have h := fixedLl_before 288 l
  rw [List.take_of_length_le (by rw [List.length_map, fixedLl_length])] at h
  rw [lengthCount, h]
  grind

theorem fixedLl_firstCode : firstCode (fixedLl.map BitVec.toNat) 7 = 0 ∧ firstCode (fixedLl.map BitVec.toNat) 8 = 0x30 ∧
    firstCode (fixedLl.map BitVec.toNat) 9 = 0x190 := by
  simp [firstCode, lengthCount_fixedLl]

/-- The codes of the fixed literal/length alphabet, by the four runs of its lengths. -/
theorem codeOf_fixedLl {sym : Nat} (h : sym < 288) : codeOf (fixedLl.map BitVec.toNat) sym =
    if sym < 144 then 0x30 + sym else if sym < 256 then 0x190 + (sym - 144) else if sym < 280 then sym - 256
      else 0xC0 + (sym - 280) := by
  obtain ⟨h7, h8, h9⟩ := fixedLl_firstCode
  rw [codeOf, fixedLl_getD h]
  split_ifs <;> simp only [h7, h8, h9, fixedLl_before] <;> grind

theorem codeOf_fixedD {sym : Nat} (h : sym < 32) : codeOf (fixedD.map BitVec.toNat) sym = sym := by
  have hf : firstCode (List.replicate 32 5) 5 = 0 := by decide
  have hl : (List.replicate 32 5).getD sym 0 = 5 := by
    rw [List.getD_eq_getElem?_getD, List.getElem?_replicate_of_lt h, Option.getD_some]
  rw [fixedD_toNat, codeOf, hl, hf, length_filter_take_replicate, if_pos rfl]
  omega

/-- The fixed tables fill the code space exactly (41_inflate.md R184). -/
theorem kraft_fixedLl : kraft (fixedLl.map BitVec.toNat) = 2 ^ 15 := by
  rw [fixedLl_toNat, kraft]
  simp only [List.map_append, List.sum_append, List.map_replicate, List.sum_replicate]
  decide

theorem kraft_fixedD : kraft (fixedD.map BitVec.toNat) = 2 ^ 15 := by
  rw [fixedD_toNat, kraft, List.map_replicate, List.sum_replicate]
  decide

/-- Settles O16: the bodies are written out, and the fixed codes are those of `codeOf_fixedLl`. -/
theorem blockBodiesStart : Obligations.BlockBodiesStart := by
  refine ⟨fun _ => rfl, fun s hs hp h hb => ⟨fun ht => ?_, fun ht => ?_⟩, fun _ => rfl, fun _ => rfl, kraft_fixedLl, kraft_fixedD,
    fun k hk => ?_, fun k hk => ?_, fun k hk => ?_, fun k hk => ?_, fun k hk => codeOf_fixedD hk⟩
  · refine step_header_body hs hp h hb (.inl ht) ?_ rfl rfl
    have hbt : s.afterHeader.u1.btype = BitVec.ofNat 2 1 := congrArg (BitVec.ofNat 2) ht
    exact hbt ▸ decode_body_fixed _
  · refine step_header_body hs hp h hb (.inr ht) ?_ rfl rfl
    have hbt : s.afterHeader.u1.btype = BitVec.ofNat 2 3 := congrArg (BitVec.ofNat 2) ht
    exact hbt ▸ decode_body_illegal _
  all_goals
    rw [codeOf_fixedLl (by omega)]
    grind

/-! ### The counts of a dynamic block (41_inflate.md R186) -/

section
variable {s : State}

/-- `HLIT` and `HDIST` latched from their fields. -/
def State.latchCounts (s : State) : InflateUnit :=
  { s.u1 with hlit := s.streamField s.regs.ipos.toNat 5 + 257, hdist := s.streamField (s.regs.ipos.toNat + 5) 5 + 1 }

theorem fetch_counts (h : s.StreamOk) (hb : s.BitsLeft 14) : s.fetch .counts = .ok
    (.counts, s.streamField s.regs.ipos.toNat 5 + 2 ^ 5 * s.streamField (s.regs.ipos.toNat + 5) 5 +
      2 ^ 10 * s.streamField (s.regs.ipos.toNat + 10) 4) { s.skip 14 with u1 := s.latchCounts } := by
  have h5 : s.BitsLeft 5 ∧ s.BitsLeft (5 + 5) := by simp only [State.BitsLeft] at hb ⊢; omega
  have hd := getbits_latched (m := 5) (n := 5) { s.u1 with hlit := s.streamField s.regs.ipos.toNat 5 + 257 } h h5.2
  have hc := getbits_latched (m := 10) (n := 4) s.latchCounts h hb
  rw [State.fetch, getbits_ok h h5.1, Res_bind_ok]
  exact (Res_bind_of_ok hd).trans (Res_bind_of_ok hc)

/-- The payload ends inside the counts. -/
theorem fetch_counts_exhausted (h : s.StreamOk) (hb : ¬ s.BitsLeft 14) : ∃ u, s.fetch .counts = .raised
    (State.raise { s.skip (8 * s.regs.inLen.toNat - s.regs.ipos.toNat) with u1 := u } .inputExhausted .inflate) := by
  rw [State.fetch]
  by_cases h5 : s.BitsLeft 5
  · rw [getbits_ok h h5, Res_bind_ok]
    by_cases h10 : s.BitsLeft 10
    · have hd := getbits_latched (m := 5) (n := 5) { s.u1 with hlit := s.streamField s.regs.ipos.toNat 5 + 257 } h h10
      have hc := getbits_latched_raised (m := 10) (n := 4) s.latchCounts h h10 hb
      exact ⟨_, (Res_bind_of_ok hd).trans (Res_bind_of_raised hc)⟩
    · exact ⟨_, Res_bind_of_raised (getbits_latched_raised (m := 5) (n := 5) _ h h5 h10)⟩
  · rw [getbits_raised h h5]
    exact ⟨s.u1, rfl⟩

/-- The value read of the counts decodes to its three fields (30_encoding.md R105). -/
theorem decode_counts_bits {l d c : Nat} (hl : l < 32) (hd : d < 32) (hc : c < 16) : decode .counts (l + 2 ^ 5 * d + 2 ^ 10 * c) =
    .ok (.dynCounts (BitVec.ofNat 5 l) (BitVec.ofNat 5 d) (BitVec.ofNat 4 c)) := by
  have := decode_counts (BitVec.ofNat 5 l) (BitVec.ofNat 5 d) (BitVec.ofNat 4 c)
  rwa [BitVec.toNat_ofNat, BitVec.toNat_ofNat, BitVec.toNat_ofNat, Nat.mod_eq_of_lt hl, Nat.mod_eq_of_lt hd,
    Nat.mod_eq_of_lt hc] at this

end

/-- Settles O17, by whether the 14 bits are there. -/
theorem dynCountsStep : Obligations.DynCountsStep := by
  refine ⟨fun _ _ _ _ => rfl, fun s h hb => ?_, fun s h hb => ?_⟩
  · have hl := streamField_lt s 5 s.regs.ipos.toNat
    have hd := streamField_lt s 5 (s.regs.ipos.toNat + 5)
    have hc := streamField_lt s 4 (s.regs.ipos.toNat + 10)
    refine ⟨_, piece_of_fetch (fetch_counts h hb) (decode_counts_bits hl hd hc), rfl, ?_, ?_, ?_, rfl, rfl, rfl⟩
    · exact congrArg (· + 257) (Nat.mod_eq_of_lt hl)
    · exact congrArg (· + 1) (Nat.mod_eq_of_lt hd)
    · exact congrArg (· + 4) (Nat.mod_eq_of_lt hc)
  · obtain ⟨u, hf⟩ := fetch_counts_exhausted h hb
    exact ⟨_, piece_of_raised hf, rfl, rfl⟩

/-! ### The end of a block, and what has no meaning (41_inflate.md R185, R193, R195) -/

/-- Settles O25, by `BFINAL`. -/
theorem endOfBlock : Obligations.EndOfBlock :=
  fun _ => ⟨fun h => congrArg Host.Outcome.next (if_pos h),
    fun h => congrArg Host.Outcome.next (if_neg (h ▸ by decide))⟩

/-- Settles O28: each illegal element is its fault, in every state. -/
theorem illegalElementsRaise : Obligations.IllegalElementsRaise :=
  ⟨fun _ => rfl, fun _ _ => rfl, fun _ _ => rfl, rfl, rfl, rfl, rfl, rfl, rfl⟩

end Sys2Proof.Machine
end

section
/-! The header of a dynamic block: the meta code lengths, and the sequence of code lengths with its repeats, whose end writes and
checks both tables (41_inflate.md R177, R187 to R192). -/

namespace Sys2Proof.Machine

/-! ### Meta code lengths (41_inflate.md R187) -/

theorem oversubscribed_iff (t : List Nat) : oversubscribed t = true ↔ 2 ^ 15 < kraft t := decide_eq_true_iff

theorem exec_dynMetaLengths (v : BitVec 3) (s : State) : exec (.dynMetaLengths v) s =
    if s.u1.metaIdx + 1 < s.u1.hclen then .next (s.putMetaLength v)
    else if oversubscribed (s.putMetaLength v).clTable then .next ((s.putMetaLength v).raise .oversubscribed .inflate)
    else .next ((s.putMetaLength v).await .codeLengths) := rfl

/-- A meta code length is written at its place in `CL_ORDER` (30_encoding.md R106). -/
theorem putMetaLength_getElem? {s : State} (v : BitVec 3) (hl : s.u1.clLen.length = 19) (hi : s.u1.metaIdx < 19) (j : Nat) :
    (s.putMetaLength v).u1.clLen[j]? = if clOrder[s.u1.metaIdx]? = some j then some v else s.u1.clLen[j]? := by
  have hlen : clOrder.length = 19 := rfl
  have horder : clOrder.getD s.u1.metaIdx 0 < 19 := by
    generalize s.u1.metaIdx = i at hi
    interval_cases i <;> decide
  have hget : clOrder[s.u1.metaIdx]? = some (clOrder.getD s.u1.metaIdx 0) := by simp [hlen, hi]
  rw [State.putMetaLength, List.getElem?_set, hl, if_pos horder, hget]
  simp only [Option.some.injEq]

/-- Settles O18, by whether more lengths follow, and then by the table's Kraft sum. -/
theorem metaLengthStored : Obligations.MetaLengthStored := by
  intro v s hl hi hc
  have hset := fun j (_ : j < 19) => putMetaLength_getElem? v hl (hi.trans_le hc) j
  rw [exec_dynMetaLengths]
  by_cases hm : s.u1.metaIdx + 1 < s.u1.hclen
  · rw [if_pos hm]
    exact ⟨_, rfl, rfl, hset, fun _ => rfl, fun he => absurd he hm.ne, fun he => absurd he hm.ne⟩
  · rw [if_neg hm]
    by_cases hk : 2 ^ 15 < kraft (s.putMetaLength v).clTable
    · rw [if_pos ((oversubscribed_iff _).2 hk)]
      exact ⟨_, rfl, rfl, hset, fun h => absurd h hm, fun _ h => absurd hk (Nat.not_lt.2 h), fun _ _ => rfl⟩
    · rw [if_neg (mt (oversubscribed_iff _).1 hk)]
      exact ⟨_, rfl, rfl, hset, fun h => absurd h hm, fun _ _ => rfl, fun _ h => absurd h hk⟩

/-! ### The end of the sequence (41_inflate.md R188) -/

theorem padTable_getElem? {n i : Nat} (l : List (BitVec 4)) (h : i < n) : (padTable n l)[i]? = some (l.getD i 0) := by
  rw [padTable, List.getElem?_take_of_lt h, List.getElem?_append]
  split
  · simp [*]
  · rw [List.getElem?_replicate_of_lt (by omega), List.getD_eq_default _ _ (by omega)]

theorem getD_take (l : List (BitVec 4)) (n i : Nat) : (l.take n).getD i 0 = if i < n then l.getD i 0 else 0 := by
  rw [List.getD_eq_getElem?_getD, List.getD_eq_getElem?_getD, List.getElem?_take]
  split <;> rfl

theorem getD_drop (l : List (BitVec 4)) (n i : Nat) : (l.drop n).getD i 0 = l.getD (n + i) 0 := by
  rw [List.getD_eq_getElem?_getD, List.getD_eq_getElem?_getD, List.getElem?_drop]

theorem finishLengths_oversubscribed {s : State} (h : 2 ^ 15 < kraft s.putTables.llTable ∨ 2 ^ 15 < kraft s.putTables.dTable) :
    s.finishLengths = s.putTables.raise .oversubscribed .inflate := by
  rw [← oversubscribed_iff, ← oversubscribed_iff] at h
  show (if oversubscribed s.putTables.llTable then s.putTables.raise .oversubscribed .inflate
    else if oversubscribed s.putTables.dTable then s.putTables.raise .oversubscribed .inflate
    else s.putTables.await .llSymbol) = _
  split_ifs
  · rfl
  · rfl
  · exact absurd h (by tauto)

theorem finishLengths_ok {s : State} (hl : kraft s.putTables.llTable ≤ 2 ^ 15) (hd : kraft s.putTables.dTable ≤ 2 ^ 15) :
    s.finishLengths = s.putTables.await .llSymbol :=
  (if_neg (mt (oversubscribed_iff _).1 (Nat.not_lt.2 hl))).trans (if_neg (mt (oversubscribed_iff _).1 (Nat.not_lt.2 hd)))

theorem finishLengths_u1 (s : State) : s.finishLengths.u1 = s.putTables.u1 := by
  obtain h | h := finishLengths_cases s <;> rw [h] <;> rfl

/-- The sequence ends at what it holds. -/
theorem finishLengths_ends (s : State) (r : Nat) (v : BitVec 4) :
    s.SequenceEnds (s.u1.seq ++ List.replicate r v) (s.appendLengths r v).finishLengths := by
  have hu := finishLengths_u1 (s.appendLengths r v)
  refine ⟨by rw [hu]; rfl, fun i hi => ?_, fun j hj => ?_, ?_, ?_⟩
  · rw [hu]
    exact (padTable_getElem? _ hi).trans (congrArg some (getD_take ..))
  · rw [hu]
    refine (padTable_getElem? _ hj).trans (congrArg some ?_)
    rw [getD_take, getD_drop]
    rfl
  · rw [hu]
    exact finishLengths_ok
  · rw [hu]
    exact finishLengths_oversubscribed

/-! ### Lengths appended (41_inflate.md R188 to R192) -/

section
variable {s : State} {r : Nat} (v : BitVec 4)

theorem pushLengths_goes_on (h : s.u1.seq.length + r < s.u1.hlit + s.u1.hdist) : s.pushLengths r v = s.appendLengths r v :=
  if_pos (by simpa [State.seqSize] using h)

theorem pushLengths_ends (h : s.u1.seq.length + r = s.u1.hlit + s.u1.hdist) :
    s.SequenceEnds (s.u1.seq ++ List.replicate r v) (s.pushLengths r v) := by
  have he : s.pushLengths r v = (s.appendLengths r v).finishLengths := if_neg (by simpa [State.seqSize] using h.ge)
  exact he ▸ finishLengths_ends s r v

theorem repeatLengths_inside (h : s.u1.seq.length + r ≤ s.u1.hlit + s.u1.hdist) : s.repeatLengths r v = s.pushLengths r v :=
  if_neg (Nat.not_lt.2 h)

theorem repeatLengths_overrun (h : s.u1.hlit + s.u1.hdist < s.u1.seq.length + r) :
    s.repeatLengths r v = s.raise .repeatOverrun .inflate := if_pos h

end

/-- Settles O19: one length is appended, and the sequence may be full. -/
theorem codeLengthAppended : Obligations.CodeLengthAppended := by
  refine ⟨fun c s h => congrArg Host.Outcome.next (pushLengths_goes_on c h), fun c s h _ _ => ⟨_, rfl, ?_⟩⟩
  obtain ⟨hu, hl, hd, hok, hover⟩ := pushLengths_ends c h
  have hseq : (s.pushLengths 1 c).u1.seq = s.u1.seq ++ List.replicate 1 c := congrArg (·.seq) hu
  exact ⟨hu, hseq ▸ hl, hseq ▸ hd, hok, hover⟩

/-! ### Repeats: the count is read, then the lengths are appended (41_inflate.md R190 to R192) -/

/-- A repeat of `v`: `base` times and as many more as the next `n` bits say. -/
def State.readRepeat (s : State) (n base : Nat) (v : BitVec 4) : Host.Outcome State Fault Refusal :=
  ((s.getbits n).bind fun e s => .ok () (s.repeatLengths (base + e) v)).outcome

theorem exec_cl16_empty {s : State} (h : s.u1.seq = []) : exec .cl16 s = .next (s.raise .repeatNoPrev .inflate) := by
  rw [exec, execCl16, h]
  rfl

theorem exec_cl16_prev {s : State} {init : List (BitVec 4)} {prev : BitVec 4} (h : s.u1.seq = init ++ [prev]) :
    exec .cl16 s = s.readRepeat 2 3 prev := by
  rw [exec, execCl16, h, List.getLast?_concat]
  rfl

section
variable {s : State} {n base : Nat} (v : BitVec 4)

theorem readRepeat_read (h : s.StreamOk) (hb : s.BitsLeft n) : s.readRepeat n base v =
    .next ((s.skip n).repeatLengths (base + s.streamField s.regs.ipos.toNat n) v) := by
  rw [State.readRepeat, getbits_ok h hb]
  rfl

theorem readRepeat_goes_on (h : s.StreamOk) (hb : s.BitsLeft n)
    (hr : s.u1.seq.length + (base + s.streamField s.regs.ipos.toNat n) < s.u1.hlit + s.u1.hdist) :
    s.readRepeat n base v = .next { s.skip n with
      u1 := { s.u1 with seq := s.u1.seq ++ List.replicate (base + s.streamField s.regs.ipos.toNat n) v } } := by
  rw [readRepeat_read v h hb, repeatLengths_inside (s := s.skip n) v hr.le, pushLengths_goes_on (s := s.skip n) v hr]
  rfl

theorem readRepeat_ends (h : s.StreamOk) (hb : s.BitsLeft n)
    (hr : s.u1.seq.length + (base + s.streamField s.regs.ipos.toNat n) = s.u1.hlit + s.u1.hdist) :
    ∃ t, s.readRepeat n base v = .next t ∧
      (s.skip n).SequenceEnds (s.u1.seq ++ List.replicate (base + s.streamField s.regs.ipos.toNat n) v) t := by
  rw [readRepeat_read v h hb, repeatLengths_inside (s := s.skip n) v hr.le]
  exact ⟨_, rfl, pushLengths_ends (s := s.skip n) v hr⟩

theorem readRepeat_overrun (h : s.StreamOk) (hb : s.BitsLeft n)
    (hr : s.u1.hlit + s.u1.hdist < s.u1.seq.length + (base + s.streamField s.regs.ipos.toNat n)) :
    s.readRepeat n base v = .next ((s.skip n).raise .repeatOverrun .inflate) := by
  rw [readRepeat_read v h hb, repeatLengths_overrun (s := s.skip n) v hr]

theorem readRepeat_exhausted (h : s.StreamOk) (hb : ¬ s.BitsLeft n) :
    ∃ t, s.readRepeat n base v = .next t ∧ t.phase = .fault ∧ t.regs.err = 0x00010603 := by
  rw [State.readRepeat, getbits_raised h hb]
  exact ⟨_, rfl, rfl, rfl⟩

end

/-- Settles O20: without a previous length the fault, with one the repeat of it. -/
theorem repeatPrevious : Obligations.RepeatPrevious := by
  refine ⟨fun s h => exec_cl16_empty h, fun s init prev hq h => ?_⟩
  rw [exec_cl16_prev hq]
  exact ⟨readRepeat_goes_on prev h, fun hb hr _ _ => readRepeat_ends prev h hb hr, readRepeat_overrun prev h,
    readRepeat_exhausted prev h⟩

/-- Settles O21: both are repeats of 0. -/
theorem zeroRuns : Obligations.ZeroRuns := by
  intro i bits base hmem s h
  have he : exec i s = s.readRepeat bits base 0 := by
    simp only [List.mem_cons, Prod.mk.injEq, List.not_mem_nil, or_false] at hmem
    obtain ⟨rfl, rfl, rfl⟩ | ⟨rfl, rfl, rfl⟩ := hmem
    · rfl
    · rfl
  rw [he]
  exact ⟨readRepeat_goes_on 0 h, fun hb hr _ _ => readRepeat_ends 0 h hb hr, readRepeat_overrun 0 h, readRepeat_exhausted 0 h⟩

end Sys2Proof.Machine
end

section
/-! What an element of the stream leaves alone, and what only grows while INFLATE runs (41_inflate.md R175, R179, R199). -/

namespace Sys2Proof.Machine

/-! ### Every element of the stream -/

/-- An element of the stream is a value of one of U1's formats. -/
theorem encode_of_isStreamElement {i : Instr} (h : isStreamElement i = true) :
    ∃ a w, Await.isU1 a = true ∧ encode i = some (a.format, w) := by
  unfold isStreamElement at h
  split at h
  · exact ⟨.header, _, rfl, ‹_›⟩
  · exact ⟨.body, _, rfl, ‹_›⟩
  · exact ⟨.counts, _, rfl, ‹_›⟩
  · exact ⟨.metaLength, _, rfl, ‹_›⟩
  · exact ⟨.codeLengths, _, rfl, ‹_›⟩
  · exact ⟨.clSymbol, _, rfl, ‹_›⟩
  · exact ⟨.llSymbol, _, rfl, ‹_›⟩
  · exact ⟨.dSymbol, _, rfl, ‹_›⟩
  · cases h

/-- Only the illegal symbols have operands that no value decodes to. -/
theorem illegal_of_not_wf {i : Instr} (hi : isStreamElement i = true) (hw : ¬ i.wf = true) :
    (∃ sym, i = .llIllegal286To287 sym) ∨ ∃ sym, i = .dIllegal30To31 sym := by
  cases i with
  | llIllegal286To287 sym => exact .inl ⟨sym, rfl⟩
  | dIllegal30To31 sym => exact .inr ⟨sym, rfl⟩
  | cmdReserved6To7 _ | cmdReserved12To15 _ | frame _ | decodeStill _ | decodeAnim _ | filterIllegal _ | blendReserved2To3 _ => cases hi
  | _ => exact absurd rfl hw

/-- What all of U1 keeps, every element keeps wherever it is executed. -/
theorem KeptByInflate.exec {P Q : State → Prop} (k : KeptByInflate P Q) {s t : State} {i : Instr} (hi : isStreamElement i = true)
    (h : P s) (he : exec i s = .next t) : P t ∨ Q t := by
  by_cases hw : i.wf = true
  · obtain ⟨a, w, ha, henc⟩ := encode_of_isStreamElement hi
    exact k.run ha h ((run_of_decode (decode_encode hw henc) s).trans he)
  · obtain ⟨sym, rfl⟩ | ⟨sym, rfl⟩ := illegal_of_not_wf hi hw
    · exact .inr (Host.Outcome.next.inj he ▸ k.raise .badLengthSymbol h)
    · exact .inr (Host.Outcome.next.inj he ▸ k.raise .badDistanceSymbol h)

/-! ### The frame of U1 -/

theorem inflateFrame_refl (s : State) : s.InflateFrame s := by and_intros <;> rfl

theorem inflateFrame_trans {s t u : State} (h : s.InflateFrame t) (h' : t.InflateFrame u) : s.InflateFrame u := by
  obtain ⟨hp, hr, hv, hb, h2, hs, hl, hc, he, hi, hf⟩ := h
  obtain ⟨hp', hr', hv', hb', h2', hs', hl', hc', he', hi', hf'⟩ := h'
  exact ⟨hp'.trans hp, hr'.trans (by rw [hr]), hv'.trans (by rw [hv]), hb'.trans (by rw [hb]), h2'.trans h2, hs'.trans hs,
    hl'.trans hl, hc'.trans hc, he'.trans he, hi'.trans hi, hf'.trans hf⟩

theorem inflateFrame_raise {s t : State} (f : FaultCode) (u : UnitId) (h : s.InflateFrame t) : s.InflateFrame (t.raise f u) :=
  inflateFrame_trans h (by and_intros <;> rfl)

/-- All of U1 stays inside its frame. -/
theorem inflateFrame_kept (s : State) : KeptByInflate s.InflateFrame s.InflateFrame where
  raise f h := inflateFrame_raise f .inflate h
  bit _ h := inflateFrame_trans h (by and_intros <;> rfl)
  align h := inflateFrame_trans h (by and_intros <;> rfl)
  below _ _ h := inflateFrame_trans h (by and_intros <;> rfl)
  grown _ _ _ h := inflateFrame_trans h (by and_intros <;> rfl)
  storedLen _ h := inflateFrame_trans h (by and_intros <;> rfl)
  matchLen _ h := inflateFrame_trans h (by and_intros <;> rfl)
  unit _ _ h := inflateFrame_trans h (by and_intros <;> rfl)
  await _ _ h := inflateFrame_trans h (by and_intros <;> rfl)
  finish h := inflateFrame_trans h (by and_intros <;> rfl)

/-! ### The elements that put nothing out -/

/-- `t` has the buffers of `s`, with `RAW_LEN` and `RAW_CAP`. -/
def State.OutputKept (s t : State) : Prop := t.buf = s.buf ∧ t.regs.rawLen = s.regs.rawLen ∧ t.regs.rawCap = s.regs.rawCap

theorem outputKept_raise {s t : State} (f : FaultCode) (u : UnitId) (h : s.OutputKept t) : s.OutputKept (t.raise f u) := h

/-- Reading bits puts nothing out. -/
theorem outputKept_keptByReads (s : State) : KeptByReads s.OutputKept s.OutputKept where
  raise f h := outputKept_raise f .inflate h
  bit _ h := h

theorem outputKept_endBlock (s : State) : s.OutputKept s.endBlock := by
  unfold State.endBlock
  split
  · exact ⟨rfl, rfl, rfl⟩
  · exact ⟨rfl, rfl, rfl⟩

theorem outputKept_metaLength {s t : State} {v : BitVec 3} (h : exec (.dynMetaLengths v) s = .next t) : s.OutputKept t := by
  rw [exec_dynMetaLengths] at h
  split_ifs at h <;> exact Host.Outcome.next.inj h ▸ ⟨rfl, rfl, rfl⟩

theorem outputKept_pushLengths (s : State) (r : Nat) (v : BitVec 4) : s.OutputKept (s.pushLengths r v) := by
  obtain h | h := pushLengths_cases s r v <;> rw [h]
  · exact ⟨rfl, rfl, rfl⟩
  · obtain h | h := finishLengths_cases (s.appendLengths r v) <;> rw [h] <;> exact ⟨rfl, rfl, rfl⟩

theorem outputKept_repeatLengths {s t : State} (r : Nat) (v : BitVec 4) (h : s.OutputKept t) : s.OutputKept (t.repeatLengths r v) := by
  unfold State.repeatLengths
  split
  · exact h
  · obtain ⟨hb, hl, hc⟩ := outputKept_pushLengths t r v
    obtain ⟨hb', hl', hc'⟩ := h
    exact ⟨hb.trans hb', hl.trans hl', hc.trans hc'⟩

theorem outputKept_readRepeat {s t : State} {n base : Nat} {v : BitVec 4} (h : s.readRepeat n base v = .next t) : s.OutputKept t :=
  (Res.Ends.outcome (P := fun _ => s.OutputKept) h (((outputKept_keptByReads s).getbits n ⟨rfl, rfl, rfl⟩).bind
    fun _ _ h => .ok (outputKept_repeatLengths _ _ h))).elim id id

theorem outputKept_cl16 {s t : State} (h : exec .cl16 s = .next t) : s.OutputKept t := by
  obtain hq | ⟨init, prev, hq⟩ := List.eq_nil_or_concat' s.u1.seq
  · rw [exec_cl16_empty hq] at h
    exact Host.Outcome.next.inj h ▸ ⟨rfl, rfl, rfl⟩
  · rw [exec_cl16_prev hq] at h
    exact outputKept_readRepeat h

theorem outputKept_lengthPart {s t : State} {sym : Nat} (h : s.lengthPart sym = .next t) : s.OutputKept t :=
  ((outputKept_keptByReads s).lengthPart (P' := s.OutputKept) (fun _ h => h) ⟨rfl, rfl, rfl⟩ h).elim id id

/-- Only STORED, LIT and the distance symbols put bytes out (41_inflate.md R175). -/
theorem outputKept_exec {i : Instr} {s t : State} (hi : isStreamElement i = true) (hstored : i ≠ .stored) (hlit : ∀ b, i ≠ .lit b)
    (hdist : i ∉ distanceSymbols.map Prod.fst) (h : exec i s = .next t) : s.OutputKept t := by
  cases i with
  | stored => exact absurd rfl hstored
  | lit b => exact absurd rfl (hlit b)
  | dist0 | dist1 | dist2 | dist3 | dist4 | dist5 | dist6 | dist7 | dist8 | dist9 | dist10 | dist11 | dist12 | dist13 | dist14
  | dist15 | dist16 | dist17 | dist18 | dist19 | dist20 | dist21 | dist22 | dist23 | dist24 | dist25 | dist26 | dist27 | dist28
  | dist29 => exact absurd (by decide) hdist
  | hdr _ _ | fixed | dyn | btypeIllegal | dynCounts _ _ _ | dynCodeLengths | llIllegal286To287 _ | dIllegal30To31 _ =>
    exact Host.Outcome.next.inj h ▸ ⟨rfl, rfl, rfl⟩
  | dynMetaLengths v => exact outputKept_metaLength h
  | cln n => exact Host.Outcome.next.inj h ▸ outputKept_pushLengths s 1 n
  | cl16 => exact outputKept_cl16 h
  | cl17 | cl18 => exact outputKept_readRepeat h
  | eob => exact Host.Outcome.next.inj h ▸ outputKept_endBlock s
  | nop | clear | inflate | recon | canvasInit | compose | hashEnc | hashDec | hashAvg | hashAspect | cmdReserved6To7 _
  | cmdReserved12To15 _ | frame _ | decodeStill _ | decodeAnim _ | filterNone | filterSub | filterUp | filterAverage | filterPaeth
  | filterIllegal _ | blendSource | blendOver | blendReserved2To3 _ | disposeNone | disposeClearToBackground
  | disposeRestorePrevious | disposeReserved3 => cases hi
  | _ =>
    rw [exec] at h
    exact outputKept_lengthPart h

/-! ### The output only grows (41_inflate.md R199) -/

/-- `RAW_LEN` has not gone down from `s` to `t`, and no byte of `RAW` but those between has changed. -/
structure State.OutputGrows (s t : State) : Prop where
  ok : t.OutputOk
  le : s.regs.rawLen.toNat ≤ t.regs.rawLen.toNat
  kept : ∀ k, k < s.regs.rawLen.toNat ∨ t.regs.rawLen.toNat ≤ k → t.byteAt .raw k = s.byteAt .raw k

theorem outputGrows_emit {s t u : State} {b : Byte} (h : s.OutputGrows t) (he : t.emit b = .ok () u) : s.OutputGrows u := by
  obtain ⟨hok, hle, hkept⟩ := h
  by_cases hr : t.RoomFor 1
  · obtain ⟨c, hc, ho, hl⟩ := emit_room b hok hr
    cases hc.symm.trans he
    exact ⟨ho, by omega, fun k hk => (emitted_byteAt_other t b c (by omega)).trans (hkept k (by omega))⟩
  · cases (emit_full b hok hr).symm.trans he

theorem outputGrows_raise {s t : State} (f : FaultCode) (u : UnitId) (h : s.OutputGrows t) : s.OutputGrows (t.raise f u) :=
  ⟨h.ok, h.le, h.kept⟩

/-- All of U1 lets the output grow. -/
theorem outputGrows_kept (s : State) : KeptByInflate s.OutputGrows s.OutputGrows where
  raise f h := outputGrows_raise f .inflate h
  bit _ h := ⟨h.ok, h.le, h.kept⟩
  align h := ⟨h.ok, h.le, h.kept⟩
  below b hc h := outputGrows_emit h (emit_below hc b)
  grown b hc hm h := outputGrows_emit h (emit_grows hc hm b)
  storedLen _ h := ⟨h.ok, h.le, h.kept⟩
  matchLen _ h := ⟨h.ok, h.le, h.kept⟩
  unit _ _ h := ⟨h.ok, h.le, h.kept⟩
  await _ _ h := ⟨h.ok, h.le, h.kept⟩
  finish h := ⟨h.ok, h.le, h.kept⟩

theorem outputGrows_refl {s : State} (h : s.InflateInv) : s.OutputGrows s := ⟨outputOk_of_inflateInv h, le_rfl, fun _ _ => rfl⟩

/-- Settles O30: the frame and the growth are kept by all of U1, and the elements that put nothing out are listed. -/
theorem streamElementFrame : Obligations.StreamElementFrame := by
  refine ⟨fun i s t hi he => ?_, fun i s t hi he hs hl hd => ?_, fun i s t hi hinv he => ?_⟩
  · exact ((inflateFrame_kept s).exec hi (inflateFrame_refl s) he).elim id id
  · refine outputKept_exec hi hs hl (fun hm => ?_) he
    obtain ⟨⟨_, base, extra⟩, hrow, rfl⟩ := List.mem_map.1 hm
    exact hd base extra hrow
  · obtain ⟨-, hle, hkept⟩ := ((outputGrows_kept s).exec hi (outputGrows_refl hinv) he).elim id id
    exact ⟨hle, hkept⟩

/-! ### INFLATE moves forward (41_inflate.md R199) -/

/-- Two properties kept by all of U1 are kept together. -/
theorem KeptByInflate.and {P Q P' Q' : State → Prop} (k : KeptByInflate P Q) (k' : KeptByInflate P' Q') :
    KeptByInflate (fun s => P s ∧ P' s) (fun s => Q s ∧ Q' s) where
  raise f h := ⟨k.raise f h.1, k'.raise f h.2⟩
  bit hb h := ⟨k.bit hb h.1, k'.bit hb h.2⟩
  align h := ⟨k.align h.1, k'.align h.2⟩
  below b hc h := ⟨k.below b hc h.1, k'.below b hc h.2⟩
  grown b hc hm h := ⟨k.grown b hc hm h.1, k'.grown b hc hm h.2⟩
  storedLen n h := ⟨k.storedLen n h.1, k'.storedLen n h.2⟩
  matchLen n h := ⟨k.matchLen n h.1, k'.matchLen n h.2⟩
  unit u hu h := ⟨k.unit u hu h.1, k'.unit u hu h.2⟩
  await a ha h := ⟨k.await a ha h.1, k'.await a ha h.2⟩
  finish h := ⟨k.finish h.1, k'.finish h.2⟩

/-- From `s` to `t` the payload is the same and `IPOS` has not gone down. -/
def State.ReadsOn (s t : State) : Prop := t.regs.inLen = s.regs.inLen ∧ s.regs.ipos.toNat ≤ t.regs.ipos.toNat

/-- The unit has stopped inside the payload of `s`. -/
def State.StopsInside (s t : State) : Prop :=
  t.phase.isBusy = false ∧ s.regs.ipos.toNat ≤ t.regs.ipos.toNat ∧ t.regs.ipos.toNat ≤ 8 * s.regs.inLen.toNat

theorem readsOn_inside {s t : State} (hb : t.InflateBounds) (h : s.ReadsOn t) : t.regs.ipos.toNat ≤ 8 * s.regs.inLen.toNat :=
  h.1 ▸ ipos_le hb

/-- `IPOS` set further on. -/
theorem readsOn_ipos {s t : State} {n : Nat} (hb : t.InflateBounds) (h : s.ReadsOn t) (hle : t.regs.ipos.toNat ≤ n)
    (hn : n ≤ 8 * t.regs.inLen.toNat) : s.ReadsOn { t with regs := { t.regs with ipos := reg n } } :=
  ⟨h.1, (h.2.trans hle).trans_eq (reg_toNat (ipos_lt hb hn)).symm⟩

theorem stopsInside_raise {s t : State} (f : FaultCode) (u : UnitId) (hb : t.InflateBounds) (h : s.ReadsOn t) :
    s.StopsInside (t.raise f u) :=
  ⟨rfl, h.2, (readsOn_inside hb h :)⟩

/-- A running INFLATE reads on, and stops inside its payload. -/
theorem readsOn_kept (s : State) : KeptByInflate (fun t => t.InflateBounds ∧ s.ReadsOn t) s.StopsInside where
  raise f h := stopsInside_raise f .inflate h.1 h.2
  bit hb h := ⟨inflateBounds_kept.bit hb h.1, readsOn_ipos h.1 h.2 (Nat.le_succ _) hb⟩
  align h := by
    have hi := ipos_le h.1
    exact ⟨inflateBounds_kept.align h.1, readsOn_ipos h.1 h.2 (by omega) (by omega)⟩
  below b hc h := ⟨inflateBounds_kept.below b hc h.1, h.2⟩
  grown b hc hm h := ⟨inflateBounds_kept.grown b hc hm h.1, h.2⟩
  storedLen n h := ⟨inflateBounds_kept.storedLen n h.1, h.2⟩
  matchLen n h := ⟨inflateBounds_kept.matchLen n h.1, h.2⟩
  unit u hu h := ⟨inflateBounds_kept.unit u hu h.1, h.2⟩
  await a ha h := ⟨inflateBounds_kept.await a ha h.1, h.2⟩
  finish h := ⟨rfl, h.2.2, (readsOn_inside h.1 h.2 :)⟩

/-- INFLATE runs on from `s`, or it has stopped. -/
def State.MovesOn (s t : State) : Prop :=
  ((t.InflateBounds ∧ s.ReadsOn t) ∧ s.OutputGrows t) ∨ (s.StopsInside t ∧ s.OutputGrows t)

theorem movesOn_piece (r : State) {s t : State} {a : Await} (ha : s.phase = .busy a) (h : r.MovesOn s) (he : s.piece a = .next t) :
    r.MovesOn t := by
  obtain h | ⟨⟨hb, -⟩, -⟩ := h
  · have hu : a.isU1 = true := by
      have := h.1.1.2
      rwa [ha] at this
    exact ((readsOn_kept r).and (outputGrows_kept r)).piece hu h he
  · rw [ha] at hb
    cases hb

/-- Settles O60: every piece of U1's element moves on from where the step began. -/
theorem inflateMovesForward : Obligations.InflateMovesForward := by
  intro s t h hu hs he
  obtain ⟨a, ha⟩ : ∃ a, s.phase = .busy a := by
    cases hp : s.phase with
    | busy a => exact ⟨a, rfl⟩
    | _ => rw [hp] at hu; cases hu
  rw [step_of_undisturbed (.inl hs) ha] at he
  have hm := element_preserves (P := s.MovesOn) (fun _ _ _ => movesOn_piece s) 31 s t a ha
    (.inl ⟨⟨⟨h, hu⟩, rfl, le_rfl⟩, outputGrows_refl h⟩) he
  obtain ⟨⟨hb, hr⟩, ho⟩ | ⟨⟨-, hle, hin⟩, ho⟩ := hm
  · exact ⟨hr.2, readsOn_inside hb hr, ho.le, fun k hk => ho.kept k (.inl hk)⟩
  · exact ⟨hle, hin, ho.le, fun k hk => ho.kept k (.inl hk)⟩

end Sys2Proof.Machine
end

section
/-! What a literal and a stored block put out: the byte and its capacity, and the bytes that follow in the payload
(41_inflate.md R175, R176, R183, R196). -/

namespace Sys2Proof.Machine

/-! ### A literal (41_inflate.md R196) -/

/-- `RAW_CAP` after one byte more. -/
def State.nextCap (s : State) : Word :=
  if s.regs.rawLen = s.regs.rawCap then reg (min (2 * s.regs.rawCap.toNat) s.params.rawMax) else s.regs.rawCap

theorem emit_nextCap {s : State} (b : Byte) (hr : s.RoomFor 1) : s.emit b = .ok () (s.emitted b s.nextCap) := by
  by_cases hc : s.regs.rawLen = s.regs.rawCap
  · have hn : s.regs.rawLen.toNat = s.regs.rawCap.toNat := congrArg BitVec.toNat hc
    rw [emit_grows hc (by simp only [State.RoomFor] at hr; omega), State.nextCap, if_pos hc]
    rfl
  · rw [emit_below hc, State.nextCap, if_neg hc]
    rfl

theorem nextCap_toNat {s : State} (h : s.OutputOk) : s.nextCap.toNat =
    if s.regs.rawLen = s.regs.rawCap then min (2 * s.regs.rawCap.toNat) s.params.rawMax else s.regs.rawCap.toNat := by
  obtain ⟨hmax, -⟩ := h
  rw [State.nextCap, apply_ite BitVec.toNat, reg_toNat (by omega)]

theorem emitted_rawLen {s : State} (b : Byte) (c : Word) (h : s.OutputOk) (hr : s.RoomFor 1) :
    (s.emitted b c).regs.rawLen.toNat = s.regs.rawLen.toNat + 1 := by
  obtain ⟨hmax, -⟩ := h
  simp only [State.RoomFor] at hr
  have hlt : s.regs.rawLen.toNat + 1 < 2 ^ 32 := by omega
  exact reg_toNat hlt

/-- Settles O24: the byte is appended with the capacity it needs, or `RAW` is full. -/
theorem literalEmits : Obligations.LiteralEmits := by
  refine ⟨fun b s h hr => ?_, fun b s h hl => ?_⟩
  · have ho := outputOk_of_inflateInv h
    exact ⟨_, congrArg Res.outcome (emit_nextCap b hr), emitted_rawLen b _ ho hr, emitted_byteAt_same s b _,
      fun _ => emitted_byteAt_other s b _, nextCap_toNat ho, rfl⟩
  · exact congrArg Res.outcome (emit_full b (outputOk_of_inflateInv h) (by simp only [State.RoomFor]; omega))

/-! ### Whole bytes of the payload (41_inflate.md R172, R173) -/

/-- The state with `IPOS` at the beginning of byte `j`. -/
def State.atByte (s : State) (j : Nat) : State := { s with regs := { s.regs with ipos := reg (8 * j) } }

/-- Stream bits inside one byte (20_memory.md R72, R73). -/
theorem streamField_inside (s : State) (j : Nat) : ∀ n i, i + n ≤ 8 →
    s.streamField (8 * j + i) n = (s.byteAt .inp j).toNat / 2 ^ i % 2 ^ n
  | 0, i, _ => (Nat.mod_one _).symm
  | n + 1, i, h => by
    have hbit : s.streamBit (8 * j + i) = (s.byteAt .inp j).toNat / 2 ^ i % 2 := by
      rw [State.streamBit, show (8 * j + i) / 8 = j by omega, show (8 * j + i) % 8 = i by omega]
    rw [State.streamField, Nat.add_assoc, streamField_inside s j n (i + 1) (by omega), hbit, pow_succ' 2 n, Nat.mod_mul,
      Nat.div_div_eq_div_mul, ← pow_succ]

theorem streamField_byte (s : State) (j : Nat) : s.streamField (8 * j) 8 = (s.byteAt .inp j).toNat := by
  have h := streamField_inside s j 8 0 le_rfl
  rwa [Nat.add_zero, pow_zero, Nat.div_one, Nat.mod_eq_of_lt (BitVec.isLt _)] at h

section
variable {s : State} {j : Nat}

theorem atByte_ipos (h : 8 * j < 2 ^ 32) : (s.atByte j).regs.ipos.toNat = 8 * j := reg_toNat h

/-- A byte that is there. -/
theorem getbyte_ok (hl : 8 * s.regs.inLen.toNat < 2 ^ 32) (h : j < s.regs.inLen.toNat) :
    (s.atByte j).getbyte = .ok (s.byteAt .inp j).toNat (s.atByte (j + 1)) := by
  have hi : (s.atByte j).regs.ipos.toNat = 8 * j := atByte_ipos (by omega)
  have hs : (s.atByte j).StreamOk := ⟨hi.trans_le (by show 8 * j ≤ 8 * s.regs.inLen.toNat; omega), hl⟩
  have hb : (s.atByte j).BitsLeft 8 := by
    show (s.atByte j).regs.ipos.toNat + 8 ≤ 8 * s.regs.inLen.toNat
    omega
  have hskip : (s.atByte j).skip 8 = s.atByte (j + 1) := by
    rw [State.skip, hi]
    rfl
  rw [State.getbyte, getbits_ok hs hb, hskip, hi, streamField_byte]
  rfl

/-- No byte is left. -/
theorem getbyte_end (hl : 8 * s.regs.inLen.toNat < 2 ^ 32) : (s.atByte s.regs.inLen.toNat).getbyte =
    .raised ((s.atByte s.regs.inLen.toNat).raise .inputExhausted .inflate) := by
  have hi : (s.atByte s.regs.inLen.toNat).regs.ipos.toNat = 8 * s.regs.inLen.toNat := atByte_ipos hl
  have hb : ¬ (s.atByte s.regs.inLen.toNat).BitsLeft 1 := by
    show ¬ (s.atByte s.regs.inLen.toNat).regs.ipos.toNat + 1 ≤ 8 * s.regs.inLen.toNat
    omega
  exact Res_bind_of_raised (getbit_raised hb)

/-- Two bytes that are there, low byte first (20_memory.md R74). -/
theorem getLe16_ok (hl : 8 * s.regs.inLen.toNat < 2 ^ 32) (h : j + 2 ≤ s.regs.inLen.toNat) : (s.atByte j).getLe16 =
    .ok ((s.byteAt .inp j).toNat + 256 * (s.byteAt .inp (j + 1)).toNat) (s.atByte (j + 2)) :=
  (Res_bind_of_ok (getbyte_ok hl (by omega))).trans (Res_bind_of_ok (getbyte_ok hl h))

/-- The payload ends before or between two bytes. -/
theorem getLe16_end (hl : 8 * s.regs.inLen.toNat < 2 ^ 32) (hj : j ≤ s.regs.inLen.toNat) (h : s.regs.inLen.toNat < j + 2) :
    (s.atByte j).getLe16 = .raised ((s.atByte s.regs.inLen.toNat).raise .inputExhausted .inflate) := by
  obtain rfl | hj := Nat.eq_or_lt_of_le hj
  · exact Res_bind_of_raised (getbyte_end hl)
  · have hend := getbyte_end hl
    have he : s.regs.inLen.toNat = j + 1 := by omega
    rw [he] at hend ⊢
    exact (Res_bind_of_ok (getbyte_ok hl hj)).trans (Res_bind_of_raised hend)

end

/-! ### The data of a stored block (41_inflate.md R183) -/

/-- `t` is `s` after `n` bytes of `IN` from index `j` were put out, `left` more being to come. -/
structure State.Stored (s t : State) (j n left : Nat) : Prop where
  state : ∃ l c m, t = { s with
    regs := { s.regs with rawLen := l, rawCap := c }, buf := { s.buf with raw := m }, u1 := { s.u1 with storedLen := left } }
  stores : s.Stores t j n

theorem stored_zero {s : State} {left : Nat} (h : s.u1.storedLen = left) (j : Nat) : s.Stored s j 0 left := by
  subst h
  exact ⟨⟨_, _, _, rfl⟩, rfl, fun _ hk => absurd hk (Nat.not_lt_zero _), fun _ _ => rfl⟩

/-- The state after one byte of `IN` is put out, `left` more being to come. -/
def State.storeOne (s : State) (j left : Nat) (c : Word) : State :=
  { s.emitted (s.byteAt .inp j) c with u1 := { s.u1 with storedLen := left } }

/-- One byte more in front. -/
theorem stored_succ {s t : State} {j n r left : Nat} {c : Word}
    (hl : (s.storeOne j r c).regs.rawLen.toNat = s.regs.rawLen.toNat + 1) (h : (s.storeOne j r c).Stored t (j + 1) n left) :
    s.Stored t j (n + 1) left := by
  obtain ⟨hstate, hlen, hnew, hkept⟩ := h
  have hfirst : (s.storeOne j r c).byteAt .raw s.regs.rawLen.toNat = s.byteAt .inp j := emitted_byteAt_same s _ c
  have hold : ∀ k, k ≠ s.regs.rawLen.toNat → (s.storeOne j r c).byteAt .raw k = s.byteAt .raw k :=
    fun k hk => emitted_byteAt_other s _ c hk
  rw [hl] at hlen hnew hkept
  refine ⟨hstate, by omega, fun k hk => ?_, fun k hk => ?_⟩
  · cases k with
    | zero => rw [Nat.add_zero, hkept _ (by omega), hfirst, Nat.add_zero]
    | succ k =>
      rw [show s.regs.rawLen.toNat + (k + 1) = s.regs.rawLen.toNat + 1 + k by omega, hnew k (by omega),
        show j + (k + 1) = j + 1 + k by omega]
      rfl
  · rw [hkept k (by omega), hold k (by omega)]

/-- Where there is a byte and room for it, it is put out. -/
theorem copyStored_succ {s : State} {j : Nat} (n : Nat) (h : s.OutputOk) (hl : 8 * s.regs.inLen.toNat < 2 ^ 32)
    (hr : s.RoomFor 1) (hj : j < s.regs.inLen.toNat) :
    ∃ c, (s.atByte j).copyStored (n + 1) = ((s.storeOne j n c).atByte (j + 1)).copyStored n ∧ (s.storeOne j n c).OutputOk ∧
      (s.storeOne j n c).regs.rawLen.toNat = s.regs.rawLen.toNat + 1 := by
  obtain ⟨c, he, ho, hlen⟩ := emit_room (s := s.atByte (j + 1)) (s.byteAt .inp j) h hr
  refine ⟨c, (Res_bind_of_ok (getbyte_ok hl hj)).trans ?_, ho, hlen⟩
  rw [BitVec.ofNat_toNat, BitVec.setWidth_eq, he]
  rfl

/-- As many bytes as there are, and as there is room for. -/
theorem copyStored_stores : ∀ (a n : Nat) {s : State} {j : Nat}, s.OutputOk → 8 * s.regs.inLen.toNat < 2 ^ 32 → s.RoomFor a →
    j + a ≤ s.regs.inLen.toNat → s.u1.storedLen = a + n →
    ∃ t, (s.atByte j).copyStored (a + n) = (t.atByte (j + a)).copyStored n ∧ t.OutputOk ∧ s.Stored t j a n
  | 0, n, s, j, ho, _, _, _, hs => ⟨s, by rw [Nat.zero_add, Nat.add_zero], ho, stored_zero (hs.trans (Nat.zero_add n)) j⟩
  | a + 1, n, s, j, ho, hl, hr, hj, _ => by
    simp only [State.RoomFor] at hr
    obtain ⟨c, he, ho', hlen⟩ := copyStored_succ (a + n) ho hl (by simp only [State.RoomFor]; omega) (by omega : j < _)
    obtain ⟨t, ht, hto, hst⟩ := copyStored_stores a n (j := j + 1) ho' hl (by show _ + a ≤ s.params.rawMax; omega)
      (by show j + 1 + a ≤ s.regs.inLen.toNat; omega) rfl
    refine ⟨t, ?_, hto, stored_succ hlen hst⟩
    rw [show a + 1 + n = a + n + 1 by omega, he, ht, show j + 1 + a = j + (a + 1) by omega]

section
variable {s : State} {j n : Nat} (hl : 8 * s.regs.inLen.toNat < 2 ^ 32)
include hl

/-- There is no byte more. -/
theorem copyStored_end : (s.atByte s.regs.inLen.toNat).copyStored (n + 1) =
    .raised ((s.atByte s.regs.inLen.toNat).raise .inputExhausted .inflate) := Res_bind_of_raised (getbyte_end hl)

/-- There is a byte more, and no room for it. -/
theorem copyStored_full (h : s.OutputOk) (hr : ¬ s.RoomFor 1) (hj : j < s.regs.inLen.toNat) :
    (s.atByte j).copyStored (n + 1) = .raised ((s.atByte (j + 1)).raise .rawOverflow .inflate) :=
  (Res_bind_of_ok (getbyte_ok hl hj)).trans (Res_bind_of_raised (emit_full (s := s.atByte (j + 1)) _ h hr))

end

/-! ### A stored block (41_inflate.md R183) -/

/-- The length of a stored block latched (10_state.md R40). -/
def State.latchStored (s : State) (len : Nat) : State := { s with u1 := { s.u1 with storedLen := len } }

section
variable {s : State} {k len : Nat}

theorem align_eq_atByte (hk : k = (s.regs.ipos.toNat + 7) / 8) : s.align = s.atByte k := by
  rw [hk]
  rfl

/-- The block's data are copied from behind its four length bytes. -/
theorem execStored_copies (h : s.StreamOk) (hk : k = (s.regs.ipos.toNat + 7) / 8)
    (hlen : len = (s.byteAt .inp k).toNat + 256 * (s.byteAt .inp (k + 1)).toNat) (h4 : k + 4 ≤ s.regs.inLen.toNat) :
    execStored s = ((((s.latchStored len).atByte (k + 4)).copyStored len).bind fun _ s => .ok () s.endBlock).outcome := by
  have h1 := getLe16_ok (s := s) (j := k) h.2 (by omega)
  have h2 := getLe16_ok (s := s.latchStored len) (j := k + 2) h.2 h4
  rw [← hlen] at h1
  rw [execStored, align_eq_atByte hk]
  exact congrArg Res.outcome ((Res_bind_of_ok h1).trans (Res_bind_of_ok h2))

/-- The payload ends inside the four length bytes. -/
theorem execStored_short (h : s.StreamOk) (hk : k = (s.regs.ipos.toNat + 7) / 8) (h4 : s.regs.inLen.toNat < k + 4) :
    ∃ n, execStored s = .next (((s.latchStored n).atByte s.regs.inLen.toNat).raise .inputExhausted .inflate) := by
  rw [execStored, align_eq_atByte hk]
  by_cases h2 : k + 2 ≤ s.regs.inLen.toNat
  · have hend := getLe16_end (s := s.latchStored ((s.byteAt .inp k).toNat + 256 * (s.byteAt .inp (k + 1)).toNat)) (j := k + 2) h.2
      h2 h4
    exact ⟨_, Res_outcome_of_raised ((Res_bind_of_ok (getLe16_ok h.2 h2)).trans (Res_bind_of_raised hend))⟩
  · have hle := h.1
    exact ⟨s.u1.storedLen, Res_outcome_of_raised (Res_bind_of_raised (getLe16_end h.2 (by omega) (by omega)))⟩

section
variable (ho : s.OutputOk) (h : s.StreamOk) (hk : k = (s.regs.ipos.toNat + 7) / 8)
  (hlen : len = (s.byteAt .inp k).toNat + 256 * (s.byteAt .inp (k + 1)).toNat)
include ho h hk hlen

/-- All of the block is there, and has room. -/
theorem execStored_ok (hin : k + 4 + len ≤ s.regs.inLen.toNat) (hr : s.RoomFor len) :
    ∃ t, execStored s = .next (t.atByte (k + 4 + len)).endBlock ∧ (s.latchStored len).Stored t (k + 4) len 0 := by
  obtain ⟨t, ht, -, hst⟩ := copyStored_stores len 0 (s := s.latchStored len) ho h.2 hr hin rfl
  exact ⟨t, (execStored_copies h hk hlen (by omega)).trans (congrArg Res.outcome (Res_bind_of_ok ht)), hst⟩

/-- The payload ends inside the data. -/
theorem execStored_exhausted {avail : Nat} (hin : k + 4 + avail = s.regs.inLen.toNat) (hlt : avail < len) (hr : s.RoomFor avail) :
    ∃ t left, execStored s = .next ((t.atByte s.regs.inLen.toNat).raise .inputExhausted .inflate) ∧
      (s.latchStored len).Stored t (k + 4) avail left := by
  have he := execStored_copies h hk hlen (by omega)
  obtain ⟨left, rfl⟩ : ∃ left, len = avail + (left + 1) := ⟨len - avail - 1, by omega⟩
  obtain ⟨t, ht, -, hst⟩ := copyStored_stores avail (left + 1) (s := s.latchStored (avail + (left + 1))) ho h.2 hr hin.le rfl
  obtain ⟨l, c, m, rfl⟩ := id hst.state
  rw [hin] at ht
  exact ⟨_, left + 1, he.trans (Res_outcome_of_raised (Res_bind_of_raised (ht.trans (copyStored_end h.2)))), hst⟩

/-- `RAW` is full inside the data. -/
theorem execStored_overflow {room : Nat} (hroom : s.regs.rawLen.toNat + room = s.params.rawMax) (hlt : room < len)
    (hin : k + 4 + room < s.regs.inLen.toNat) :
    ∃ t left, execStored s = .next ((t.atByte (k + 4 + room + 1)).raise .rawOverflow .inflate) ∧
      (s.latchStored len).Stored t (k + 4) room left := by
  have he := execStored_copies h hk hlen (by omega)
  obtain ⟨left, rfl⟩ : ∃ left, len = room + (left + 1) := ⟨len - room - 1, by omega⟩
  obtain ⟨t, ht, hto, hst⟩ := copyStored_stores room (left + 1) (s := s.latchStored (room + (left + 1))) ho h.2 hroom.le hin.le rfl
  have hfull : t.regs.rawLen.toNat = s.regs.rawLen.toNat + room := hst.stores.1
  obtain ⟨l, c, m, rfl⟩ := id hst.state
  have hr : ¬ l.toNat + 1 ≤ s.params.rawMax := by
    have : l.toNat = s.regs.rawLen.toNat + room := hfull
    omega
  exact ⟨_, left + 1, he.trans (Res_outcome_of_raised (Res_bind_of_raised (ht.trans (copyStored_full h.2 hto hr hin)))), hst⟩

end

end

theorem endBlock_final {s : State} (h : s.u1.bfinal = 1) : s.endBlock = s.endInflate := if_pos h

theorem endBlock_more {s : State} (h : s.u1.bfinal = 0) : s.endBlock = s.await .header := if_neg (h ▸ by decide)

/-- Settles O29, by how many of the block's bytes there are, and there is room for. -/
theorem storedBlockCopies : Obligations.StoredBlockCopies := by
  intro s k len hi h hk hlen
  have ho := outputOk_of_inflateInv hi
  refine ⟨fun hin hr => ?_, fun h4 => ?_, fun avail hin hlt hr => ?_, fun room hroom hlt hin => ?_⟩
  · obtain ⟨t, he, ⟨l, c, m, rfl⟩, hst⟩ := execStored_ok ho h hk hlen hin hr
    have hip : (reg (8 * (k + 4 + len))).toNat = 8 * (k + 4 + len) := reg_toNat (by have := h.2; omega)
    obtain hf | hf : s.u1.bfinal = 0 ∨ s.u1.bfinal = 1 := by
      generalize s.u1.bfinal = b
      revert b
      decide
    · refine ⟨_, he.trans (congrArg Host.Outcome.next (endBlock_more hf)), by and_intros <;> rfl, rfl, rfl, hip, hst,
        fun h1 => absurd (hf.symm.trans h1) (by decide), fun _ => ⟨rfl, rfl, rfl⟩⟩
    · refine ⟨_, he.trans (congrArg Host.Outcome.next (endBlock_final hf)), by and_intros <;> rfl, rfl, rfl, hip, hst,
        fun _ => ⟨rfl, rfl, rfl⟩, fun h0 => absurd (h0.symm.trans hf) (by decide)⟩
  · obtain ⟨n, he⟩ := execStored_short h hk h4
    exact ⟨_, he, by and_intros <;> rfl, rfl, rfl, rfl, rfl, rfl, rfl⟩
  · obtain ⟨t, left, he, ⟨l, c, m, rfl⟩, hst⟩ := execStored_exhausted ho h hk hlen hin hlt hr
    exact ⟨_, he, by and_intros <;> rfl, rfl, rfl, rfl, hst⟩
  · obtain ⟨t, left, he, ⟨l, c, m, rfl⟩, hst⟩ := execStored_overflow ho h hk hlen hroom hlt hin
    exact ⟨_, he, by and_intros <;> rfl, rfl, rfl, rfl, hst⟩

end Sys2Proof.Machine
end

section
/-! Filter reversal: each byte is the raw byte and its prediction, the Paeth prediction is the nearest neighbour, and reversal undoes the
forward filter (42_scanline.md R246 to R252, R261). -/

namespace Sys2Proof.Machine

/-! ### The prediction of a byte (42_scanline.md R246) -/

/-- The byte of line `l` that stands `bpp` to the left of byte `i`, 0 outside the line. -/
def leftByte (bpp : Nat) (l : List Byte) (i : Nat) : Nat := if bpp ≤ i then (l.getD (i - bpp) 0).toNat else 0

/-- The prediction of byte `i` of line `l` below the line `prior`. -/
def prediction (ft : Filter) (bpp : Nat) (l prior : List Byte) (i : Nat) : Nat :=
  predictor ft (leftByte bpp l i) (prior.getD i 0).toNat (leftByte bpp prior i)

/-- A prediction looks, of its own line, at the bytes to the left alone. -/
theorem prediction_congr {ft : Filter} {bpp : Nat} {l l' prior : List Byte} {i : Nat} (hb : 1 ≤ bpp)
    (h : ∀ j, j < i → l.getD j 0 = l'.getD j 0) : prediction ft bpp l prior i = prediction ft bpp l' prior i := by
  have hl : leftByte bpp l i = leftByte bpp l' i := by
    unfold leftByte
    split
    · rw [h (i - bpp) (by omega)]
    · rfl
  rw [prediction, prediction, hl]

/-- The last byte but `bpp - 1` of the reconstructed ones is the left neighbour. -/
theorem leftByte_reverse {bpp : Nat} (hb : 1 ≤ bpp) (done : List Byte) :
    leftByte bpp done.reverse done.length = (done.getD (bpp - 1) 0).toNat := by
  unfold leftByte
  split
  · rw [List.getD_eq_getElem?_getD, List.getElem?_reverse (by omega), ← List.getD_eq_getElem?_getD,
      show done.length - 1 - (done.length - bpp) = bpp - 1 by omega]
  · rw [List.getD_eq_default _ _ (by omega)]
    rfl

theorem unfilterFrom_cons {bpp : Nat} (hb : 1 ≤ bpp) (ft : Filter) (prior done : List Byte) (x : Byte) (rest : List Byte) :
    unfilterFrom ft bpp prior done (x :: rest) =
      unfilterFrom ft bpp prior (BitVec.ofNat 8 (x.toNat + prediction ft bpp done.reverse prior done.length) :: done) rest := by
  rw [unfilterFrom, prediction, leftByte_reverse hb]
  rfl

/-! ### The reversed line (42_scanline.md R246) -/

theorem length_unfilterFrom (ft : Filter) (bpp : Nat) (prior : List Byte) : ∀ (rest done : List Byte),
    (unfilterFrom ft bpp prior done rest).length = done.length + rest.length
  | [], done => List.length_reverse
  | x :: rest, done => by
    rw [unfilterFrom, length_unfilterFrom ft bpp prior rest, List.length_cons, List.length_cons]
    omega

/-- A reconstructed byte stays. -/
theorem unfilterFrom_begins (ft : Filter) (bpp : Nat) (prior : List Byte) : ∀ (rest done : List Byte),
    done.reverse <+: unfilterFrom ft bpp prior done rest
  | [], _ => ⟨[], List.append_nil _⟩
  | _ :: rest, _ => List.IsPrefix.trans ⟨_, List.reverse_cons.symm⟩ (unfilterFrom_begins ft bpp prior rest _)

theorem getD_of_begins {l l' : List Byte} (h : l <+: l') {i : Nat} (hi : i < l.length) : l'.getD i 0 = l.getD i 0 := by
  obtain ⟨t, rfl⟩ := h
  exact List.getD_append l t 0 i hi

/-- Each byte still to be reconstructed is the raw byte and its prediction in the result. -/
theorem unfilterFrom_byte {bpp : Nat} (hb : 1 ≤ bpp) (ft : Filter) (prior : List Byte) : ∀ (rest done : List Byte) (i : Nat),
    i < rest.length → (unfilterFrom ft bpp prior done rest).getD (done.length + i) 0 = BitVec.ofNat 8 ((rest.getD i 0).toNat +
      prediction ft bpp (unfilterFrom ft bpp prior done rest) prior (done.length + i))
  | x :: rest, done, 0, _ => by
    have hp : prediction ft bpp (unfilterFrom ft bpp prior done (x :: rest)) prior done.length =
        prediction ft bpp done.reverse prior done.length :=
      prediction_congr hb fun j hj => getD_of_begins (unfilterFrom_begins ft bpp prior _ done) (by simpa using hj)
    rw [Nat.add_zero, hp, unfilterFrom_cons hb, getD_of_begins (unfilterFrom_begins ft bpp prior rest _) (by simp)]
    simp
  | x :: rest, done, i + 1, h => by
    have ih := unfilterFrom_byte hb ft prior rest
      (BitVec.ofNat 8 (x.toNat + prediction ft bpp done.reverse prior done.length) :: done) i (Nat.lt_of_succ_lt_succ h)
    rw [← unfilterFrom_cons hb, List.length_cons, Nat.add_right_comm] at ih
    exact ih

theorem length_unfilter (ft : Filter) (bpp : Nat) (cur prior : List Byte) : (unfilter ft bpp cur prior).length = cur.length :=
  (length_unfilterFrom ft bpp prior cur []).trans (Nat.zero_add _)

theorem unfilter_byte {bpp : Nat} (hb : 1 ≤ bpp) (ft : Filter) (cur prior : List Byte) {i : Nat} (h : i < cur.length) :
    (unfilter ft bpp cur prior).getD i 0 =
      BitVec.ofNat 8 ((cur.getD i 0).toNat + prediction ft bpp (unfilter ft bpp cur prior) prior i) := by
  have hi := unfilterFrom_byte hb ft prior cur [] i h
  rwa [List.length_nil, Nat.zero_add] at hi

/-- Settles O32: each byte as `unfilter_byte` has it, and the predictors and examples evaluated. -/
theorem filterReversal : Obligations.FilterReversal := by
  refine ⟨fun ft bpp cur prior hb => ⟨length_unfilter ft bpp cur prior, fun i hi => unfilter_byte hb ft cur prior hi⟩,
    fun a b c => ⟨rfl, rfl, rfl, rfl⟩, rfl, rfl, rfl, rfl, ?_⟩
  rintro _ _ rfl rfl
  decide

/-! ### The forward filter undone (42_scanline.md R261) -/

theorem length_filterForward (ft : Filter) (bpp : Nat) (line prior : List Byte) :
    (filterForward ft bpp line prior).length = line.length := by simp [filterForward]

theorem filterForward_byte (ft : Filter) (bpp : Nat) (line prior : List Byte) {i : Nat} (h : i < line.length) :
    (filterForward ft bpp line prior).getD i 0 = line.getD i 0 - BitVec.ofNat 8 (prediction ft bpp line prior i) := by
  rw [List.getD_eq_getElem _ _ (by rwa [length_filterForward])]
  simp only [filterForward, List.getElem_map, List.getElem_range]
  rfl

/-- A prediction taken away and added again leaves the byte, modulo 256. -/
theorem ofNat_sub_add (x : Byte) (p : Nat) : BitVec.ofNat 8 ((x - BitVec.ofNat 8 p).toNat + p) = x := by
  rw [BitVec.ofNat_add, BitVec.ofNat_toNat, BitVec.setWidth_eq, BitVec.sub_add_cancel]

/-- Every byte comes back, those to its left having come back before it. -/
theorem unfilter_filterForward_byte {bpp : Nat} (hb : 1 ≤ bpp) (ft : Filter) (line prior : List Byte) {i : Nat} (h : i < line.length) :
    (unfilter ft bpp (filterForward ft bpp line prior) prior).getD i 0 = line.getD i 0 := by
  induction i using Nat.strong_induction_on with
  | _ i ih =>
    have hp : prediction ft bpp (unfilter ft bpp (filterForward ft bpp line prior) prior) prior i =
        prediction ft bpp line prior i := prediction_congr hb fun j hj => ih j hj (hj.trans h)
    rw [unfilter_byte hb ft _ prior (by rwa [length_filterForward]), hp, filterForward_byte ft bpp line prior h, ofNat_sub_add]

/-- Settles O33, byte by byte from the left. -/
theorem filterIdentity : Obligations.FilterIdentity := by
  intro ft bpp line prior hb
  have hlen : (unfilter ft bpp (filterForward ft bpp line prior) prior).length = line.length :=
    (length_unfilter ft bpp _ prior).trans (length_filterForward ft bpp line prior)
  refine List.ext_getElem hlen fun i hi hi' => ?_
  rw [← List.getD_eq_getElem _ 0 hi, ← List.getD_eq_getElem _ 0 hi']
  exact unfilter_filterForward_byte hb ft line prior hi'

/-! ### Paeth (42_scanline.md R251) -/

/-- The distance of `x` from `a + b - c`. -/
def paethDistance (a b c x : Nat) : Nat := ((a : Int) + b - c - x).natAbs

/-- The three ways the Paeth predictor decides. -/
theorem paeth_cases (a b c : Nat) :
    (paeth a b c = a ∧ paethDistance a b c a ≤ paethDistance a b c b ∧ paethDistance a b c a ≤ paethDistance a b c c) ∨
    (paeth a b c = b ∧ paethDistance a b c b < paethDistance a b c a ∧ paethDistance a b c b ≤ paethDistance a b c c) ∨
    (paeth a b c = c ∧ paethDistance a b c c < paethDistance a b c a ∧ paethDistance a b c c < paethDistance a b c b) := by
  unfold paeth paethDistance
  simp only
  split_ifs <;> omega

/-- Settles O34, by the three ways the predictor decides; the values are evaluated. -/
theorem paethPicksNearest : Obligations.PaethPicksNearest := by
  refine ⟨fun a b c => ?_, fun a => ?_, fun b => ?_, by decide, by decide, by decide, by decide, by decide, by decide, by decide,
    by decide, by decide, fun _ _ _ => rfl, rfl⟩
  · simp only [List.mem_cons, List.not_mem_nil, or_false, forall_eq_or_imp, forall_eq]
    have hcases := paeth_cases a b c
    unfold paethDistance at hcases
    obtain ⟨h, hb, hc⟩ | ⟨h, ha, hc⟩ | ⟨h, ha, hb⟩ := hcases <;> rw [h] <;> omega
  · have h := paeth_cases a 0 0
    unfold paethDistance at h
    omega
  · have h := paeth_cases 0 b 0
    unfold paethDistance at h
    omega

/-! ### Filter bytes without a predictor (42_scanline.md R252) -/

/-- Settles O36: the byte decodes to the illegal filter type, and RECON's step is its execution. -/
theorem filterIllegalRaises : Obligations.FilterIllegalRaises := by
  refine ⟨fun w h h' => ?_, fun _ _ => rfl, fun s hs hp h => ?_⟩
  · have hw : (BitVec.ofNat 8 w).toNat = w := Nat.mod_eq_of_lt (Nat.lt_succ_of_le h')
    have hd := decode_filterIllegal (ft := BitVec.ofNat 8 w) (hw.symm ▸ h)
    rwa [hw] at hd
  · exact step_of_piece hs hp (piece_of_fetch (s' := s) rfl (decode_filterIllegal h)) rfl

end Sys2Proof.Machine
end

section
/-! The samples of a line and the pixels they make (42_scanline.md R253 to R260). -/

namespace Sys2Proof.Machine

/-! ### Samples (42_scanline.md R253) -/

/-- A sample narrower than a byte, `per` of them to the byte, is `d` bits of one byte, counted from its top. -/
theorem samp_packed {d per : Nat} (h : (d, per) ∈ [(1, 8), (2, 4), (4, 2)]) (line : List Byte) (k : Nat) :
    samp d line k = (line.getD (k / per) 0).toNat / 2 ^ (8 - d * (k % per + 1)) % 2 ^ d := by
  simp only [List.mem_cons, Prod.mk.injEq, List.not_mem_nil, or_false] at h
  obtain ⟨rfl, rfl⟩ | ⟨rfl, rfl⟩ | ⟨rfl, rfl⟩ := h <;> rfl

/-- Bit `j` of sample `k` is bit `d * k + j` of the line. -/
theorem packed_position {d per : Nat} (h : (d, per) ∈ [(1, 8), (2, 4), (4, 2)]) (k : Nat) {j : Nat} (hj : j < d) :
    (d * k + j) / 8 = k / per ∧ 8 - d * (k % per + 1) + (d - 1 - j) = 7 - (d * k + j) % 8 := by
  simp only [List.mem_cons, Prod.mk.injEq, List.not_mem_nil, or_false] at h
  obtain ⟨rfl, rfl⟩ | ⟨rfl, rfl⟩ | ⟨rfl, rfl⟩ := h <;> omega

theorem samp_packed_bits {d per : Nat} (h : (d, per) ∈ [(1, 8), (2, 4), (4, 2)]) (line : List Byte) (k j : Nat) :
    samp d line k < 2 ^ d ∧
    (j < d → (samp d line k).testBit (d - 1 - j) = (line.getD ((d * k + j) / 8) 0).toNat.testBit (7 - (d * k + j) % 8)) := by
  rw [samp_packed h]
  refine ⟨Nat.mod_lt _ (Nat.two_pow_pos d), fun hj => ?_⟩
  obtain ⟨hbyte, hbit⟩ := packed_position h k hj
  rw [hbyte, ← hbit, Nat.testBit_mod_two_pow, Nat.testBit_div_two_pow, decide_eq_true (by omega), Bool.true_and, Nat.add_comm]

theorem samp_byte_bits (line : List Byte) (k j : Nat) : samp 8 line k < 2 ^ 8 ∧
    (j < 8 → (samp 8 line k).testBit (8 - 1 - j) = (line.getD ((8 * k + j) / 8) 0).toNat.testBit (7 - (8 * k + j) % 8)) := by
  refine ⟨BitVec.isLt _, fun hj => ?_⟩
  rw [show (8 * k + j) / 8 = k by omega, show 7 - (8 * k + j) % 8 = 8 - 1 - j by omega]
  rfl

/-- Two bytes, the high one first. -/
theorem samp_word_bits (line : List Byte) (k j : Nat) : samp 16 line k < 2 ^ 16 ∧
    (j < 16 → (samp 16 line k).testBit (16 - 1 - j) =
      (line.getD ((16 * k + j) / 8) 0).toNat.testBit (7 - (16 * k + j) % 8)) := by
  have hs : samp 16 line k = 2 ^ 8 * (line.getD (2 * k) 0).toNat + (line.getD (2 * k + 1) 0).toNat := rfl
  have hhi := (line.getD (2 * k) 0).isLt
  have hlo := (line.getD (2 * k + 1) 0).isLt
  refine ⟨by omega, fun hj => ?_⟩
  rw [hs, Nat.testBit_two_pow_mul_add _ hlo]
  by_cases h : j < 8
  · rw [if_neg (by omega), show (16 * k + j) / 8 = 2 * k by omega, show 7 - (16 * k + j) % 8 = 16 - 1 - j - 8 by omega]
  · rw [if_pos (by omega), show (16 * k + j) / 8 = 2 * k + 1 by omega, show 7 - (16 * k + j) % 8 = 16 - 1 - j by omega]

/-- A sample at any depth: the `d` bits from bit `d * k` of the line, the first one highest. -/
theorem samp_bits {d : Nat} (h : d ∈ [1, 2, 4, 8, 16]) (line : List Byte) (k j : Nat) : samp d line k < 2 ^ d ∧
    (j < d → (samp d line k).testBit (d - 1 - j) = (line.getD ((d * k + j) / 8) 0).toNat.testBit (7 - (d * k + j) % 8)) := by
  simp only [List.mem_cons, List.not_mem_nil, or_false] at h
  obtain rfl | rfl | rfl | rfl | rfl := h
  · exact samp_packed_bits (per := 8) (by decide) line k j
  · exact samp_packed_bits (per := 4) (by decide) line k j
  · exact samp_packed_bits (per := 2) (by decide) line k j
  · exact samp_byte_bits line k j
  · exact samp_word_bits line k j

/-! ### The reduction to 8 bits (42_scanline.md R254) -/

/-- A sample of at most 8 bits is scaled so that the largest becomes 255. -/
theorem to8_scaled {d v : Nat} (hd : d ∈ [1, 2, 4, 8]) (hv : v < 2 ^ d) : (to8 d v).toNat * (2 ^ d - 1) = 255 * v := by
  simp only [List.mem_cons, List.not_mem_nil, or_false] at hd
  obtain rfl | rfl | rfl | rfl := hd <;> simp only [to8, BitVec.toNat_ofNat] <;> omega

theorem to8_word {v : Nat} (hv : v < 2 ^ 16) : (to8 16 v).toNat = v / 256 := Nat.mod_eq_of_lt (Nat.div_lt_of_lt_mul hv)

/-! ### Pixels (42_scanline.md R255 to R260) -/

theorem keySample_eq (w : Word) : keySample w = w.toNat % 65536 := congrArg (· % 65536) (Nat.div_one _)

section

variable {s : State} {line : List Byte} {d : Nat} {v : Nat → Nat} (hd : d = s.bitDepth) (hv : v = samp d line) (col : Nat)
include hd hv

theorem pixel_gray (h : s.colorType = 0) : s.pixel line col = some ⟨to8 d (v col), to8 d (v col), to8 d (v col),
    if s.trMode = 2 ∧ v col = s.regs.key0.toNat % 65536 then 0 else 255⟩ := by
  simp [State.pixel, h, hd, hv, keyAlpha, keySample_eq]

theorem pixel_rgb (h : s.colorType = 2) : s.pixel line col =
    some ⟨to8 d (v (3 * col)), to8 d (v (3 * col + 1)), to8 d (v (3 * col + 2)),
      if s.trMode = 3 ∧ v (3 * col) = s.regs.key0.toNat % 65536 ∧ v (3 * col + 1) = s.regs.key1.toNat % 65536 ∧
        v (3 * col + 2) = s.regs.key2.toNat % 65536 then 0 else 255⟩ := by
  simp [State.pixel, h, hd, hv, keyAlpha, keySample_eq, and_assoc]

theorem pixel_indexed (h : s.colorType = 3) : s.pixel line col = if s.regs.palN.toNat ≤ v col then none else some
    ⟨s.byteAt .pal (3 * v col), s.byteAt .pal (3 * v col + 1), s.byteAt .pal (3 * v col + 2),
      if s.trMode = 1 ∧ v col < s.trN then s.byteAt .trns (v col) else 255⟩ := by
  simp [State.pixel, h, hd, hv]

theorem pixel_grayAlpha (h : s.colorType = 4) : s.pixel line col = some ⟨to8 d (v (2 * col)), to8 d (v (2 * col)),
    to8 d (v (2 * col)), to8 d (v (2 * col + 1))⟩ := by
  simp [State.pixel, h, hd, hv]

theorem pixel_rgbAlpha (h : s.colorType = 6) : s.pixel line col = some ⟨to8 d (v (4 * col)), to8 d (v (4 * col + 1)),
    to8 d (v (4 * col + 2)), to8 d (v (4 * col + 3))⟩ := by
  simp [State.pixel, h, hd, hv]

end

/-- Only an index outside the palette makes no pixel (42_scanline.md R259). -/
theorem pixel_eq_none (s : State) (line : List Byte) (col : Nat) :
    s.pixel line col = none ↔ s.colorType = 3 ∧ s.regs.palN.toNat ≤ samp s.bitDepth line col := by
  by_cases h : s.colorType = 3
  · rw [pixel_indexed rfl rfl col h]
    simp [h]
  · refine iff_of_false ?_ fun hc => h hc.1
    unfold State.pixel
    split <;> simp_all

end Sys2Proof.Machine
end

section
/-! A scanline as a whole: the pixels of the line one after the other in `TILE`, and the row, pass or end that follows
(42_scanline.md R240; 43_deinterlace.md R280 to R285). -/

namespace Sys2Proof.Machine

/-! ### The places of a line's pixels (43_deinterlace.md R280, R282) -/

theorem pass_cs_pos {w h : Nat} {il : Bool} {p : Pass} (hp : p ∈ passList w h il) : 1 ≤ p.cs := by
  cases il with
  | true =>
    have hcs : ∀ q ∈ passTuples, 1 ≤ q.2.2.2 := by decide
    obtain ⟨q, hq, rfl⟩ := List.mem_map.1 hp
    exact hcs q hq
  | false =>
    obtain rfl := List.mem_singleton.1 hp
    exact le_rfl

theorem currentPass_mem {s : State} (h : s.u2.passIdx < s.passes.length) : s.currentPass ∈ s.passes := by
  rw [State.currentPass, List.getD_eq_getElem _ _ h]
  exact List.getElem_mem h

/-- The pixels of a line do not overlap. -/
theorem lineIndex_lt {s : State} (hcs : 1 ≤ s.currentPass.cs) {c c' : Nat} (h : c < c') : s.lineIndex c + 4 ≤ s.lineIndex c' := by
  have hm : (c + 1) * s.currentPass.cs ≤ c' * s.currentPass.cs := Nat.mul_le_mul_right _ h
  rw [Nat.succ_mul] at hm
  unfold State.lineIndex
  omega

/-! ### The pixels of a line written (42_scanline.md R240) -/

/-- The tile replaced. -/
def State.withTile (s : State) (m : Memory) : State := { s with buf := { s.buf with tile := m } }

/-- In the tile `m` the first `n` pixels of `CUR` stand at their places, and every other byte is as before. -/
def State.LineWritten (s : State) (n : Nat) (m : Memory) : Prop :=
  (∀ col, col < n → s.pixel s.u2.cur col = some ((s.withTile m).pixelAt .tile (s.lineIndex col))) ∧
  ∀ k, s.OutsideLine n k → (s.withTile m).byteAt .tile k = s.byteAt .tile k

theorem lineWritten_zero (s : State) : s.LineWritten 0 s.buf.tile := ⟨nofun, fun _ _ => rfl⟩

theorem lineWritten_succ {s : State} {n : Nat} {m : Memory} {px : Pixel} (hcs : 1 ≤ s.currentPass.cs) (hw : s.LineWritten n m)
    (hp : s.pixel s.u2.cur n = some px) : s.LineWritten (n + 1) (Memory.write m (s.lineIndex n) px.bytes) := by
  obtain ⟨hpx, hout⟩ := hw
  have hkeep : ∀ k, k < s.lineIndex n ∨ s.lineIndex n + 4 ≤ k →
      (s.withTile (Memory.write m (s.lineIndex n) px.bytes)).byteAt .tile k = (s.withTile m).byteAt .tile k := fun k hk =>
    byteAt_writeBytes_out (s.withTile m) .tile (s.lineIndex n) px.bytes k hk
  refine ⟨fun col hcol => ?_, fun k hk => (hkeep k (hk n (Nat.lt_succ_self n))).trans (hout k fun col hcol => hk col (by omega))⟩
  obtain hlt | rfl := Nat.lt_succ_iff_lt_or_eq.1 hcol
  · rw [hpx col hlt]
    have hi := lineIndex_lt hcs hlt
    exact congrArg some (pixelAt_congr fun k _ hk => hkeep k (by omega)).symm
  · rw [hp]
    exact congrArg some (pixelAt_writePixels (s := s.withTile m) (b := .tile) (o := s.lineIndex col) (px := [px]) (i := 0) rfl).symm

/-- As long as every pixel exists the line's pixels are written from the left. -/
theorem writePixels_writes {s : State} (hcs : 1 ≤ s.currentPass.cs) {n : Nat} : ∀ {a : Nat}, a ≤ n →
    (∀ col, col < a → s.pixel s.u2.cur col ≠ none) →
    ∃ m, s.LineWritten a m ∧ s.writePixels n 0 = (s.withTile m).writePixels (n - a) a
  | 0, _, _ => ⟨s.buf.tile, lineWritten_zero s, rfl⟩
  | a + 1, ha, h => by
    obtain ⟨m, hw, he⟩ := writePixels_writes hcs (Nat.le_of_succ_le ha) fun col hcol => h col (by omega)
    obtain ⟨px, hpx⟩ := Option.ne_none_iff_exists'.1 (h a (Nat.lt_succ_self a))
    have hpx' : (s.withTile m).pixel (s.withTile m).u2.cur a = some px := hpx
    refine ⟨_, lineWritten_succ hcs hw hpx, he.trans ?_⟩
    rw [show n - a = n - (a + 1) + 1 by omega, State.writePixels, hpx']
    rfl

section

variable {s : State} (hcs : 1 ≤ s.currentPass.cs) (ft : Filter)
include hcs

/-- A line whose pixels all exist is written whole. -/
theorem reconLine_whole (h : ∀ col, col < s.currentPass.pw → s.pixel (s.lineOut ft) col ≠ none) :
    ∃ m, (s.takeLine ft).LineWritten s.currentPass.pw m ∧ s.reconLine ft = ((s.takeLine ft).withTile m).nextLine := by
  obtain ⟨m, hw, he⟩ := writePixels_writes (s := s.takeLine ft) hcs le_rfl h
  rw [Nat.sub_self] at he
  exact ⟨m, hw, by rw [State.reconLine, he]; rfl⟩

/-- A line stops at its first pixel that does not exist. -/
theorem reconLine_stops {bad : Nat} (hb : bad < s.currentPass.pw) (h : ∀ col, col < bad → s.pixel (s.lineOut ft) col ≠ none)
    (hn : s.pixel (s.lineOut ft) bad = none) : ∃ m, (s.takeLine ft).LineWritten bad m ∧
      s.reconLine ft = ((s.takeLine ft).withTile m).raise .paletteIndexRange .scanline := by
  obtain ⟨m, hw, he⟩ := writePixels_writes (s := s.takeLine ft) hcs (Nat.le_of_lt hb) h
  have hn' : ((s.takeLine ft).withTile m).pixel ((s.takeLine ft).withTile m).u2.cur bad = none := hn
  rw [show s.currentPass.pw - bad = s.currentPass.pw - (bad + 1) + 1 by omega, State.writePixels, hn'] at he
  exact ⟨m, hw, by rw [State.reconLine, he]⟩

end

/-! ### The pass gone to (42_scanline.md R240, 43_deinterlace.md R283) -/

theorem isEmpty_iff (p : Pass) : p.isEmpty = true ↔ p.pw = 0 ∨ p.ph = 0 := by simp [Pass.isEmpty]

theorem nextPass_eq_findIdx (ps : List Pass) (i : Nat) : nextPass ps i = i + (ps.drop i).findIdx fun p => !p.isEmpty := by
  rw [nextPass, List.takeWhile_eq_take_findIdx_not, List.length_take, min_eq_left List.findIdx_le_length]

/-- The first pass from `i` on that is not empty. -/
theorem nextPass_eq {ps : List Pass} {i k : Nat} {p : Pass} (hi : i ≤ k) (hk : ps[k]? = some p) (hp : p.isEmpty = false)
    (he : ∀ j e, i ≤ j → j < k → ps[j]? = some e → e.isEmpty = true) : nextPass ps i = k := by
  obtain ⟨hlt, rfl⟩ := List.getElem?_eq_some_iff.1 hk
  have hf : (ps.drop i).findIdx (fun p => !p.isEmpty) = k - i := by
    refine (List.findIdx_eq (by rw [List.length_drop]; omega)).2 ⟨?_, fun j hj => ?_⟩
    · simpa [Nat.add_sub_cancel' hi] using hp
    · simpa using he (i + j) _ (by omega) (by omega) (List.getElem?_eq_getElem (by omega))
  rw [nextPass_eq_findIdx, hf]
  omega

/-- No pass from `i` on that is not empty. -/
theorem nextPass_none {ps : List Pass} {i : Nat} (hi : i ≤ ps.length) (he : ∀ j e, i ≤ j → ps[j]? = some e → e.isEmpty = true) :
    nextPass ps i = ps.length := by
  have hf : (ps.drop i).findIdx (fun p => !p.isEmpty) = (ps.drop i).length := by
    refine List.findIdx_eq_length.2 fun e hmem => ?_
    obtain ⟨j, hj⟩ := List.getElem?_of_mem hmem
    rw [List.getElem?_drop] at hj
    rw [he (i + j) e (Nat.le_add_right i j) hj]
    rfl
  rw [nextPass_eq_findIdx, hf, List.length_drop]
  omega

/-! ### After a line (42_scanline.md R240) -/

theorem nextLine_row {s : State} (h : s.u2.row + 1 < s.currentPass.ph) :
    s.nextLine = { s with u2 := { s.u2 with row := s.u2.row + 1, prior := s.u2.cur } } := if_pos h

theorem nextLine_pass {s : State} {k : Nat} {p : Pass} (h : s.u2.row + 1 = s.currentPass.ph) (hi : s.u2.passIdx < k)
    (hk : s.passes[k]? = some p) (hp : p.isEmpty = false)
    (he : ∀ j e, s.u2.passIdx < j → j < k → s.passes[j]? = some e → e.isEmpty = true) :
    s.nextLine = { s with u2 := { s.u2 with passIdx := k, row := 0, prior := List.replicate (s.rowbytes p.pw) 0 } } := by
  have hn : nextPass s.passes (s.u2.passIdx + 1) = k := nextPass_eq hi hk hp he
  obtain ⟨hlt, -⟩ := List.getElem?_eq_some_iff.1 hk
  rw [State.nextLine, if_neg h.not_lt, hn, if_pos hlt, State.startPass, hk]

theorem nextLine_end {s : State} (h : s.u2.row + 1 = s.currentPass.ph) (hi : s.u2.passIdx < s.passes.length)
    (he : ∀ j e, s.u2.passIdx < j → s.passes[j]? = some e → e.isEmpty = true) : s.nextLine = s.endRecon := by
  rw [State.nextLine, if_neg h.not_lt, nextPass_none hi he, if_neg (lt_irrefl _)]
  rfl

/-- Whatever follows, the line read stays in `CUR` and the read position past it. -/
theorem nextLine_line (s : State) : s.nextLine.u2.pos = s.u2.pos ∧ s.nextLine.u2.cur = s.u2.cur := by
  unfold State.nextLine
  split_ifs <;> exact ⟨rfl, rfl⟩

theorem nextLine_frame (s : State) : s.ReconFrame s.nextLine ∧ s.nextLine.regs.err = s.regs.err := by
  obtain ⟨u, h⟩ | h := nextLine_cases s <;> rw [h] <;> and_intros <;> rfl

theorem nextLine_byte (s : State) (b : Buf) (k : Nat) : s.nextLine.byteAt b k = s.byteAt b k := by
  obtain ⟨u, h⟩ | h := nextLine_cases s <;> rw [h] <;> rfl

/-! ### The filter types (42_scanline.md R247 to R251) -/

theorem exec_filterRows {i : Instr} {ft : Filter} (h : (i, ft) ∈ filterRows) (s : State) : exec i s = .next (s.reconLine ft) := by
  simp only [filterRows, List.mem_cons, Prod.mk.injEq, List.not_mem_nil, or_false] at h
  obtain ⟨rfl, rfl⟩ | ⟨rfl, rfl⟩ | ⟨rfl, rfl⟩ | ⟨rfl, rfl⟩ | ⟨rfl, rfl⟩ := h <;> rfl

/-- A pixel whose index, if it has one, is inside the palette exists. -/
theorem pixel_ne_none {s : State} {line : List Byte} {col : Nat}
    (h : s.colorType = 3 → samp s.bitDepth line col < s.regs.palN.toNat) : s.pixel line col ≠ none := fun hn => by
  obtain ⟨hc, hle⟩ := (pixel_eq_none s line col).1 hn
  exact absurd (h hc) (Nat.not_lt.2 hle)

/-- Settles O35: the pixels are written from the left up to the first that does not exist; the samples and pixels are those of
`samp_bits`, `to8_scaled` and the lemmas on each colour type. -/
theorem lineCompletes : Obligations.LineCompletes := by
  refine ⟨fun i ft hi s hs hp => ?_, fun d k j line hd => samp_bits hd line k j,
    fun d v hv => ⟨fun hd => to8_scaled hd hv, fun hd => hd ▸ to8_word (hd ▸ hv)⟩, fun s line col d v hd hv =>
    ⟨pixel_gray hd hv col, pixel_grayAlpha hd hv col, pixel_rgb hd hv col, pixel_rgbAlpha hd hv col, pixel_indexed hd hv col⟩⟩
  obtain ⟨-, -, -, hrecon, -⟩ := hs
  obtain ⟨-, hidx, -, -⟩ := hrecon hp
  have hcs : 1 ≤ s.currentPass.cs := pass_cs_pos (currentPass_mem hidx)
  rw [exec_filterRows hi]
  refine ⟨fun hin => ?_, fun bad hc hbad hle hin => ?_⟩
  · obtain ⟨m, ⟨hpx, hout⟩, he⟩ := reconLine_whole hcs ft fun col hcol => pixel_ne_none fun hc => hin hc col hcol
    obtain ⟨hframe, herr⟩ := nextLine_frame ((s.takeLine ft).withTile m)
    obtain ⟨hpos, hcur⟩ := nextLine_line ((s.takeLine ft).withTile m)
    have hbyte := nextLine_byte ((s.takeLine ft).withTile m) .tile
    rw [he]
    refine ⟨_, rfl, hframe, herr, fun hrow => ?_, fun k p hrow hk hkp hw hh hbefore => ?_, fun hrow hafter => ?_, hpos, hcur,
      fun col hcol => (hpx col hcol).trans (congrArg some (pixelAt_congr fun k _ _ => hbyte k).symm),
      fun k hk => (hbyte k).trans (hout k hk)⟩
    · rw [nextLine_row (s := (s.takeLine ft).withTile m) hrow]
      exact ⟨hp, rfl, rfl, rfl, rfl, rfl⟩
    · have hne : p.isEmpty = false := Bool.eq_false_iff.2 fun h => by
        have h0 := (isEmpty_iff p).1 h
        omega
      rw [nextLine_pass (s := (s.takeLine ft).withTile m) hrow hk hkp hne fun j e hj hjk hje =>
        (isEmpty_iff e).2 (hbefore j e hj hjk hje)]
      exact ⟨hp, rfl, rfl, rfl, rfl, rfl⟩
    · rw [nextLine_end (s := (s.takeLine ft).withTile m) hrow hidx fun j e hj hje => (isEmpty_iff e).2 (hafter j e hj hje)]
      exact ⟨rfl, rfl, rfl⟩
  · obtain ⟨m, ⟨hpx, hout⟩, he⟩ := reconLine_stops hcs ft hbad (fun col hcol => pixel_ne_none fun _ => hin col hcol)
      ((pixel_eq_none ..).2 ⟨hc, hle⟩)
    rw [he]
    exact ⟨_, rfl, rfl, hpx, hout⟩

end Sys2Proof.Machine
end

section
/-! The seven passes of an interlaced image: which pixel is in which, at what row and column, and how long the stream is
(43_deinterlace.md R280 to R286, 42_scanline.md R243 to R245). -/

namespace Sys2Proof.Machine

/-! ### The places of a pass (43_deinterlace.md R280 to R282) -/

/-- Origin and step of a pass, as `passTuples` has them. -/
def Pass.tuple (p : Pass) : Nat × Nat × Nat × Nat := (p.sr, p.sc, p.rs, p.cs)

/-- The pass with this origin and step samples column `x` and row `y`. -/
abbrev Samples (q : Nat × Nat × Nat × Nat) (x y : Nat) : Prop := x % q.2.2.2 = q.2.1 ∧ y % q.2.2.1 = q.1

theorem passExtent_lt_iff {extent start step i : Nat} (hstep : 0 < step) :
    i < passExtent extent start step ↔ start + i * step < extent := by
  refine ⟨passExtent_inside, fun h => ?_⟩
  rw [passExtent, if_pos (by omega), ← Nat.succ_le_iff, Nat.le_div_iff_mul_le hstep, Nat.succ_mul]
  omega

/-- Along one axis an origin below the step makes index and place determine each other. -/
theorem passExtent_place_iff {extent start step i x : Nat} (h : start < step) :
    i < passExtent extent start step ∧ x = start + i * step ↔ x < extent ∧ x % step = start ∧ i = x / step := by
  constructor
  · rintro ⟨hi, rfl⟩
    refine ⟨passExtent_inside hi, ?_, ?_⟩
    · rw [Nat.add_mul_mod_self_right, Nat.mod_eq_of_lt h]
    · rw [Nat.add_mul_div_right _ _ (by omega), Nat.div_eq_of_lt h, Nat.zero_add]
  · rintro ⟨hx, hs, rfl⟩
    have hplace : start + x / step * step = x := hs ▸ Nat.mod_add_div' x step
    exact ⟨(passExtent_lt_iff (by omega)).2 (hplace.symm ▸ hx), hplace.symm⟩

/-- Every origin lies below its step, and every step divides 8. -/
theorem passTuples_bounds : ∀ q ∈ passTuples, (q.1 < q.2.2.1 ∧ q.2.1 < q.2.2.2) ∧ q.2.2.1 ∣ 8 ∧ q.2.2.2 ∣ 8 := by decide

theorem passList_map_tuple (w h : Nat) : (passList w h true).map Pass.tuple = passTuples := rfl

theorem tuple_mem_passTuples {w h : Nat} {p : Pass} (hp : p ∈ passList w h true) : p.tuple ∈ passTuples :=
  passList_map_tuple w h ▸ List.mem_map_of_mem hp

theorem pass_extents {w h : Nat} {p : Pass} (hp : p ∈ passList w h true) :
    p.pw = passExtent w p.sc p.cs ∧ p.ph = passExtent h p.sr p.rs := by
  obtain ⟨q, -, rfl⟩ := List.mem_map.1 hp
  exact ⟨rfl, rfl⟩

theorem pass_place_iff {w h : Nat} {p : Pass} (hp : p ∈ passList w h true) (x y row col : Nat) :
    (row < p.ph ∧ y = p.sr + row * p.rs) ∧ (col < p.pw ∧ x = p.sc + col * p.cs) ↔
      (x < w ∧ y < h) ∧ Samples p.tuple x y ∧ row = y / p.rs ∧ col = x / p.cs := by
  obtain ⟨⟨hsr : p.sr < p.rs, hsc : p.sc < p.cs⟩, -⟩ := passTuples_bounds _ (tuple_mem_passTuples hp)
  obtain ⟨hpw, hph⟩ := pass_extents hp
  rw [hpw, hph, passExtent_place_iff hsr, passExtent_place_iff hsc]
  simp only [Samples, Pass.tuple]
  tauto

/-! ### Each pixel is in one pass (43_deinterlace.md R284) -/

/-- The seven passes divide an 8 by 8 square among them (43_deinterlace.md R284). -/
theorem passTuples_square : ∀ a b : Fin 8, ∃ k : Fin passTuples.length, ∀ j : Fin passTuples.length,
    Samples passTuples[j] a b ↔ j = k := by decide

/-- Which pass samples a pixel depends on its place in its 8 by 8 square alone. -/
theorem samples_mod_eight {q : Nat × Nat × Nat × Nat} (hq : q ∈ passTuples) (x y : Nat) :
    Samples q (x % 8) (y % 8) ↔ Samples q x y := by
  obtain ⟨-, hrs, hcs⟩ := passTuples_bounds q hq
  rw [Samples, Samples, Nat.mod_mod_of_dvd x hcs, Nat.mod_mod_of_dvd y hrs]

theorem exists_pass_iff (x y : Nat) : ∃ k : Fin passTuples.length, ∀ j : Fin passTuples.length,
    Samples passTuples[j] x y ↔ j = k := by
  obtain ⟨k, hk⟩ := passTuples_square ⟨x % 8, Nat.mod_lt x (by decide)⟩ ⟨y % 8, Nat.mod_lt y (by decide)⟩
  exact ⟨k, fun j => (samples_mod_eight (List.getElem_mem j.2) x y).symm.trans (hk j)⟩

theorem passTuples_getElem {w h k : Nat} {p : Pass} (hp : (passList w h true)[k]? = some p) :
    ∃ hk : k < passTuples.length, passTuples[k] = p.tuple :=
  List.getElem?_eq_some_iff.1 (by rw [← passList_map_tuple w h, List.getElem?_map, hp, Option.map_some])

theorem pixel_in_one_pass {w h x y : Nat} (hx : x < w) (hy : y < h) :
    ∃ (k row col : Nat) (p : Pass), (passList w h true)[k]? = some p ∧ row < p.ph ∧ col < p.pw ∧
      x = p.sc + col * p.cs ∧ y = p.sr + row * p.rs ∧
      ∀ (k' row' col' : Nat) (p' : Pass), (passList w h true)[k']? = some p' → row' < p'.ph → col' < p'.pw →
        x = p'.sc + col' * p'.cs → y = p'.sr + row' * p'.rs → k' = k ∧ row' = row ∧ col' = col := by
  obtain ⟨k, hk⟩ := exists_pass_iff x y
  have hp : (passList w h true)[k.1]? = some (passList w h true)[k.1] :=
    List.getElem?_eq_getElem (l := passList w h true) k.2
  obtain ⟨_, htuple⟩ := passTuples_getElem hp
  obtain ⟨⟨hrow, hyr⟩, hcol, hxc⟩ := (pass_place_iff (List.mem_of_getElem? hp) x y _ _).2 ⟨⟨hx, hy⟩, htuple ▸ (hk k).2 rfl, rfl, rfl⟩
  refine ⟨k, _, _, _, hp, hrow, hcol, hxc, hyr, fun k' row' col' p' hp' hrow' hcol' hxc' hyr' => ?_⟩
  obtain ⟨-, hsamples, hr, hc⟩ := (pass_place_iff (List.mem_of_getElem? hp') x y _ _).1 ⟨⟨hrow', hyr'⟩, hcol', hxc'⟩
  obtain ⟨hlt, hq⟩ := passTuples_getElem hp'
  obtain rfl : k' = k.1 := congrArg Fin.val ((hk ⟨k', hlt⟩).1 (by rwa [Fin.getElem_fin, hq]))
  obtain rfl : (passList w h true)[k.1] = p' := Option.some.inj (hp.symm.trans hp')
  exact ⟨rfl, hr, hc⟩

/-! ### Lengths (42_scanline.md R243 to R245, 43_deinterlace.md R283, R286) -/

theorem rowbytes_bounds (s : State) (pw : Nat) :
    pw * s.bitsPerPixel ≤ 8 * s.rowbytes pw ∧ 8 * s.rowbytes pw < pw * s.bitsPerPixel + 8 := by
  unfold State.rowbytes
  omega

theorem rowbytes_gray8 {s : State} (hc : s.colorType = 0) (hd : s.bitDepth = 8) (pw : Nat) : s.rowbytes pw = pw := by
  have hbits : s.bitsPerPixel = 8 := by rw [State.bitsPerPixel, hc, hd]; rfl
  have hbounds := rowbytes_bounds s pw
  rw [hbits] at hbounds
  omega

/-- Scanline bytes of a pass of a gray 8-bit image: a filter byte and a byte per pixel in each line. -/
def Pass.gray8Bytes (p : Pass) : Nat := if p.isEmpty then 0 else p.ph * (1 + p.pw)

theorem passBytes_gray8 {s : State} (hc : s.colorType = 0) (hd : s.bitDepth = 8) : s.passBytes = Pass.gray8Bytes :=
  funext fun p => by rw [State.passBytes, rowbytes_gray8 hc hd, Pass.gray8Bytes]

theorem smallImages_passes : ∀ e ∈ smallImages, (passList e.1 e.2.1 true).map (fun p => (p.pw, p.ph)) = e.2.2.1 ∧
    ((passList e.1 e.2.1 true).map Pass.gray8Bytes).sum = e.2.2.2 := by decide

theorem pixelWidths_eq : ∀ e ∈ pixelWidths, channels e.1 * e.2.1 = e.2.2.1 ∧ max 1 (e.2.2.1 / 8) = e.2.2.2 := by decide

theorem streamNeed_plain {s : State} (hw : 1 ≤ s.regs.fW.toNat) (hi : s.interlaced = false) :
    s.streamNeed = s.regs.fH.toNat * (1 + s.rowbytes s.regs.fW.toNat) := by
  simp only [State.streamNeed, State.passes, hi, passList, Bool.false_eq_true, if_false, List.map_singleton, List.sum_singleton,
    State.passBytes, isEmpty_iff]
  split_ifs with h
  · have hh : s.regs.fH.toNat = 0 := by omega
    rw [hh, Nat.zero_mul]
  · rfl

/-- Settles O37: the passes divide the 8 by 8 square among them, and along an axis index and place determine each other; the tables
are evaluated. -/
theorem passesCoverOnce : Obligations.PassesCoverOnce := by
  refine ⟨fun w h x y => pixel_in_one_pass, passList_map_tuple, fun _ _ => rfl, fun s w h need dims he => ?_,
    fun s ct d bits bpp he hc hd => ?_, rowbytes_bounds, fun s => streamNeed_plain⟩
  · obtain ⟨hdims, hneed⟩ := smallImages_passes _ he
    refine ⟨hdims, fun hw hh hi hc hd => ?_⟩
    rw [State.streamNeed, State.passes, passBytes_gray8 hc hd, hw, hh, hi]
    exact hneed
  · obtain ⟨hbits, hbpp⟩ := pixelWidths_eq _ he
    have hb : s.bitsPerPixel = bits := by rwa [State.bitsPerPixel, hc, hd]
    exact ⟨hb, by rwa [State.bpp, hb]⟩

end Sys2Proof.Machine
end

section
/-! The blend and dispose modes one by one: the formula of `over` and its corner cases, what a blend mode leaves, how a dispose mode
ends COMPOSE (44_compositor.md R291 to R307). -/

namespace Sys2Proof.Machine

/-! ### The formula of `over` (44_compositor.md R296, R303) -/

/-- A selector of one of the three colours. -/
def IsColour (sel : Pixel → Byte) : Prop := sel = Pixel.r ∨ sel = Pixel.g ∨ sel = Pixel.b

/-- The weight `N` of the two pixels together. -/
def overWeight (src dst : Pixel) : Nat := 255 * src.a.toNat + dst.a.toNat * (255 - src.a.toNat)

/-- A colour of the two pixels, weighted and summed. -/
def overSum (src dst : Pixel) (sel : Pixel → Byte) : Nat :=
  255 * src.a.toNat * (sel src).toNat + dst.a.toNat * (255 - src.a.toNat) * (sel dst).toNat

theorem overPixel_colour {sel : Pixel → Byte} (h : IsColour sel) (src dst : Pixel) : sel (overPixel src dst) =
    if overWeight src dst = 0 then 0 else BitVec.ofNat 8 (overSum src dst sel / overWeight src dst) := by
  obtain rfl | rfl | rfl := h <;> rfl

theorem byte_toNat_le (x : Byte) : x.toNat ≤ 255 := Nat.le_of_lt_succ x.isLt

theorem byte_ofNat_toNat {n : Nat} (h : n ≤ 255) : (BitVec.ofNat 8 n).toNat = n := Nat.mod_eq_of_lt (Nat.lt_succ_of_le h)

theorem overWeight_le (src dst : Pixel) : overWeight src dst ≤ 65025 := by
  have hs := byte_toNat_le src.a
  have hd : dst.a.toNat * (255 - src.a.toNat) ≤ 255 * (255 - src.a.toNat) := Nat.mul_le_mul_right _ (byte_toNat_le dst.a)
  unfold overWeight
  omega

/-- The mean of two bytes is a byte. -/
theorem overSum_le (src dst : Pixel) (sel : Pixel → Byte) : overSum src dst sel ≤ overWeight src dst * 255 := by
  rw [overSum, overWeight, Nat.add_mul]
  exact Nat.add_le_add (Nat.mul_le_mul_left _ (byte_toNat_le _)) (Nat.mul_le_mul_left _ (byte_toNat_le _))

theorem overPixel_alpha_toNat (src dst : Pixel) : (overPixel src dst).a.toNat = overWeight src dst / 255 :=
  byte_ofNat_toNat (Nat.div_le_of_le_mul (overWeight_le src dst))

theorem overPixel_colour_zero {sel : Pixel → Byte} (h : IsColour sel) {src dst : Pixel} (hn : overWeight src dst = 0) :
    sel (overPixel src dst) = 0 := (overPixel_colour h src dst).trans (if_pos hn)

theorem overPixel_colour_toNat {sel : Pixel → Byte} (h : IsColour sel) {src dst : Pixel} (hn : overWeight src dst ≠ 0) :
    (sel (overPixel src dst)).toNat = overSum src dst sel / overWeight src dst := by
  rw [overPixel_colour h, if_neg hn]
  exact byte_ofNat_toNat (Nat.div_le_of_le_mul (overSum_le src dst sel))

/-- `over` gives the pixel whose alpha makes up the weight and whose colours make up the sums. -/
theorem overPixel_eq {src dst p : Pixel} (hp : p.a ≠ 0) (hw : overWeight src dst = 255 * p.a.toNat)
    (hs : ∀ sel, overSum src dst sel = 255 * p.a.toNat * (sel p).toNat) : overPixel src dst = p := by
  have hpos : 0 < p.a.toNat := Nat.pos_of_ne_zero fun h => hp (BitVec.eq_of_toNat_eq h)
  have hn : 0 < 255 * p.a.toNat := by omega
  have hcol {sel : Pixel → Byte} (h : IsColour sel) : sel (overPixel src dst) = sel p := BitVec.eq_of_toNat_eq (by
    rw [overPixel_colour_toNat h (hw ▸ hn.ne'), hs, hw, Nat.mul_div_cancel_left _ hn])
  have halpha : (overPixel src dst).a = p.a := BitVec.eq_of_toNat_eq (by
    rw [overPixel_alpha_toNat, hw, Nat.mul_div_cancel_left _ (by decide)])
  calc overPixel src dst = ⟨(overPixel src dst).r, (overPixel src dst).g, (overPixel src dst).b, (overPixel src dst).a⟩ := rfl
    _ = ⟨p.r, p.g, p.b, p.a⟩ := by rw [hcol (.inl rfl), hcol (.inr (.inl rfl)), hcol (.inr (.inr rfl)), halpha]

/-- An opaque source hides the canvas. -/
theorem overPixel_opaque {src : Pixel} (h : src.a = 255) (dst : Pixel) : overPixel src dst = src :=
  overPixel_eq (by rw [h]; decide) (by simp [overWeight, h]) fun sel => by simp [overSum, h]

/-- Over nothing, the source stands. -/
theorem overPixel_over_transparent {src dst : Pixel} (hs : src.a ≠ 0) (hd : dst.a = 0) : overPixel src dst = src :=
  overPixel_eq hs (by simp [overWeight, hd]) fun sel => by simp [overSum, hd]

/-- A transparent source leaves a visible canvas pixel. -/
theorem overPixel_transparent {src dst : Pixel} (hs : src.a = 0) (hd : dst.a ≠ 0) : overPixel src dst = dst :=
  overPixel_eq hd (by simp [overWeight, hs, Nat.mul_comm]) fun sel => by simp [overSum, hs, Nat.mul_comm 255]

theorem overPixel_both_transparent {src dst : Pixel} (hs : src.a = 0) (hd : dst.a = 0) : overPixel src dst = ⟨0, 0, 0, 0⟩ := by
  simp [overPixel, hs, hd]

theorem overWeight_opaque_canvas (src : Pixel) {dst : Pixel} (h : dst.a = 255) : overWeight src dst = 255 * 255 := by
  have hs := byte_toNat_le src.a
  have hd : dst.a.toNat = 255 := by rw [h]; rfl
  rw [overWeight, hd]
  omega

theorem overPixel_opaque_canvas_alpha (src : Pixel) {dst : Pixel} (h : dst.a = 255) : (overPixel src dst).a = 255 :=
  BitVec.eq_of_toNat_eq (by rw [overPixel_alpha_toNat, overWeight_opaque_canvas src h]; rfl)

/-- On an opaque canvas a factor 255 cancels. -/
theorem overPixel_opaque_canvas_colour {sel : Pixel → Byte} (hsel : IsColour sel) (src : Pixel) {dst : Pixel} (h : dst.a = 255) :
    (sel (overPixel src dst)).toNat =
      (src.a.toNat * (sel src).toNat + (255 - src.a.toNat) * (sel dst).toNat) / 255 := by
  have hw := overWeight_opaque_canvas src h
  have hd : dst.a.toNat = 255 := by rw [h]; rfl
  rw [overPixel_colour_toNat hsel (by rw [hw]; decide), hw, overSum, hd, Nat.mul_assoc, Nat.mul_assoc, ← Nat.mul_add,
    Nat.mul_div_mul_left _ _ (by decide)]

/-- Settles O41: no byte of `over` is cut off, and in each corner case the weights cancel. -/
theorem overIsExact : Obligations.OverIsExact := by
  refine ⟨?_, fun _ dst h => overPixel_opaque h dst, fun _ _ => overPixel_transparent, fun _ _ => overPixel_both_transparent,
    fun _ _ => overPixel_over_transparent,
    fun src dst h => ⟨overPixel_opaque_canvas_alpha src h, fun sel hsel => overPixel_opaque_canvas_colour hsel src h⟩, by decide⟩
  rintro src dst _ rfl
  exact ⟨overWeight_le src dst, overPixel_alpha_toNat src dst, fun sel hsel => ⟨overPixel_colour_zero hsel, overPixel_colour_toNat hsel⟩⟩

/-! ### The blend modes (44_compositor.md R294, R295, R297) -/

/-- The rectangle's new pixels, the tile's and the canvas's mixed. -/
def State.mixed (mix : Pixel → Pixel → Pixel) (s : State) (j i : Nat) : Pixel := mix (s.tilePixel j i) (s.canvasPixel j i)

theorem mixed_local (mix : Pixel → Pixel → Pixel) (s : State) : s.Local (State.mixed mix) :=
  fun _ _ i j h => congrArg (mix (s.tilePixel j i)) h

/-- A legal blend mode rewrites the rectangle and takes the snapshot. -/
theorem exec_blend {i : Instr} {mix : Pixel → Pixel → Pixel}
    (h : (i = .blendSource ∧ mix = fun src _ => src) ∨ (i = .blendOver ∧ mix = overPixel)) (s : State) :
    exec i s = .next (s.blended (State.mixed mix)) := by
  obtain ⟨rfl, rfl⟩ | ⟨rfl, rfl⟩ := h <;> rfl

/-- What a blend mode changes besides the contents of `CANVAS` and `OUT`: whatever becomes of the count, `OUT` has the canvas's size. -/
theorem blended_shape (s : State) (f : State → Nat → Nat → Pixel) : ∃ m o n c, s.blended f = { s with
    buf := { s.buf with canvas := m, out := o }, phase := .busy .dispose, freeCtr := c,
    regs := { s.regs with outLen := reg s.canvasBytes, outW := s.regs.canvasW, outH := s.regs.canvasH, frameCnt := n } } := by
  obtain ⟨m, hm⟩ := mapRect_canvas s f
  obtain ⟨n, c, hc⟩ := countFrame_state { (s.mapRect f).copyBuf .canvas .out (s.mapRect f).canvasBytes with
    regs := { (s.mapRect f).regs with
      outLen := reg (s.mapRect f).canvasBytes, outW := (s.mapRect f).regs.canvasW, outH := (s.mapRect f).regs.canvasH } }
  rw [hm] at hc
  rw [State.blended, hm]
  exact ⟨_, _, n, c, congrArg (State.setPhase · _) hc⟩

theorem blended_frame (s : State) (f : State → Nat → Nat → Pixel) : s.ComposeFrame (s.blended f) ∧
    (s.blended f).phase = .busy .dispose ∧ (s.blended f).valid = s.valid ∧ (s.blended f).regs.outLen = reg s.canvasBytes ∧
    (s.blended f).regs.outW = s.regs.canvasW ∧ (s.blended f).regs.outH = s.regs.canvasH := by
  obtain ⟨m, o, n, c, h⟩ := blended_shape s f
  rw [h]
  and_intros <;> rfl

/-- Below 2^32 the frames are counted, with no free value drawn. -/
theorem blended_counts {s : State} (f : State → Nat → Nat → Pixel) (h : s.regs.frameCnt.toNat + 1 < 2 ^ 32) :
    (s.blended f).regs.frameCnt.toNat = s.regs.frameCnt.toNat + 1 ∧ (s.blended f).freeCtr = s.freeCtr := by
  rw [blended_state f h]
  exact ⟨reg_toNat h, rfl⟩

/-- The snapshot leaves the rewritten canvas. -/
theorem blended_canvas_byte (s : State) (f : State → Nat → Nat → Pixel) (k : Nat) :
    (s.blended f).byteAt .canvas k = (s.mapRect f).byteAt .canvas k :=
  (snapshot_byte (s.mapRect f) .canvas k).trans (byteAt_writeBytes_other _ _ _ _ _ _ (by decide))

theorem mapRect_out_byte (s : State) (f : State → Nat → Nat → Pixel) (k : Nat) :
    (s.mapRect f).byteAt .out k = s.byteAt .out k := by
  obtain ⟨m, hm⟩ := mapRect_canvas s f
  rw [hm]
  exact byteAt_congr rfl rfl

/-- Beyond the canvas's size `OUT` is kept. -/
theorem blended_out_byte_beyond {s : State} (f : State → Nat → Nat → Pixel) {k : Nat} (h : s.canvasBytes ≤ k) :
    (s.blended f).byteAt .out k = s.byteAt .out k := by
  have hcopy : (s.blended f).byteAt .out k = (s.mapRect f).byteAt .out k :=
    (snapshot_byte (s.mapRect f) .out k).trans (byteAt_copyBuf_beyond _ _ _ (by rwa [mapRect_canvasBytes]))
  rw [hcopy, mapRect_out_byte]

/-- The canvas's size in bytes fits a register (00_scope.md R5). -/
theorem canvasBytes_lt {s : State} (h : s.SizeInv) (hp : s.phase = .busy .blend ∨ s.phase = .busy .dispose) :
    s.canvasBytes < 2 ^ 32 := by
  have hsize := (compose_inside h hp).1
  obtain ⟨⟨-, -, -, -, -, -, -, hmax⟩, -⟩ := h
  exact (hsize.trans hmax).trans_lt (by decide)

/-- Settles O40: the rectangle is rewritten from itself and the tile, then the canvas is copied to `OUT` and counted. -/
theorem blendCompletes : Obligations.BlendCompletes := by
  refine ⟨fun i mix hi s hs hp => ?_, fun _ _ => rfl⟩
  obtain ⟨hframe, hphase, hvalid, hlen, hw, hh⟩ := blended_frame s (State.mixed mix)
  have hrect := (compose_inside hs (.inl hp)).2
  refine ⟨_, exec_blend hi s, hframe, hphase, hvalid, fun x y hx hy => ?_, fun k hk => ?_, fun k hk => ?_,
    fun k => blended_out_byte_beyond _, ?_, hw, hh, blended_counts _⟩
  · rw [pixelAt_congr fun k _ _ => blended_canvas_byte s _ k]
    exact mapRect_pixel hrect (mixed_local mix s) hx hy
  · rw [blended_canvas_byte, mapRect_byte _ hk]
  · rw [blended_out_byte _ hk, blended_canvas_byte]
  · rw [hlen, reg_toNat (canvasBytes_lt hs (.inl hp))]

/-! ### The dispose modes (44_compositor.md R298 to R300, R306) -/

/-- The rectangle zeroed, COMPOSE ended. -/
def State.cleared (s : State) : State := (s.mapRect fun _ _ _ => Pixel.zero).endCompose

theorem exec_disposeClear (s : State) : exec .disposeClearToBackground s = .next s.cleared := rfl

theorem exec_disposeRestore (s : State) : exec .disposeRestorePrevious s = .next s.restored := rfl

theorem cleared_state (s : State) : s.cleared = { s with
    valid := { s.valid with canvas := true, out := true }, phase := .done, buf := { s.buf with canvas := s.cleared.buf.canvas } } := by
  obtain ⟨m, hm⟩ := mapRect_canvas s fun _ _ _ => Pixel.zero
  rw [State.cleared, hm]
  rfl

theorem cleared_byte (s : State) (k : Nat) :
    s.cleared.byteAt .canvas k = (s.mapRect fun _ _ _ => Pixel.zero).byteAt .canvas k := byteAt_congr rfl rfl

theorem cleared_pixel {s : State} (h : s.RectInside) {i j : Nat} (hi : i < s.regs.fW.toNat) (hj : j < s.regs.fH.toNat) :
    s.cleared.pixelAt .canvas (s.canvasIndex i j) = Pixel.zero := by
  rw [pixelAt_congr fun k _ _ => cleared_byte s k]
  exact mapRect_pixel h (fun _ _ _ _ _ => rfl) hi hj

/-- Beyond its size the canvas is not restored. -/
theorem restored_canvas_byte_beyond {s : State} {k : Nat} (h : s.canvasBytes ≤ k) :
    s.restored.byteAt .canvas k = s.byteAt .canvas k := by
  rw [restored_byte, byteAt_copyBuf_beyond _ _ _ h]

/-- Settles O42, mode by mode. -/
theorem disposeCompletes : Obligations.DisposeCompletes := by
  refine ⟨fun _ => rfl, fun s hs hp => ?_, fun s => ?_, fun _ => rfl⟩
  · have hrect := (compose_inside hs (.inr hp)).2
    exact ⟨s.cleared, exec_disposeClear s, fun x y hx hy => cleared_pixel hrect hx hy,
      fun k hk => (cleared_byte s k).trans (mapRect_byte _ hk), cleared_state s⟩
  · exact ⟨s.restored, exec_disposeRestore s, fun _ => restored_canvas_byte, fun _ => restored_canvas_byte_beyond, rfl⟩

end Sys2Proof.Machine
end

section
/-! The header query HASH_AVG: what it leaves, and that its numerators are the decoder's colour without AC terms (40_commands.md R153;
45_dct_hash.md R346, R360). -/

namespace Sys2Proof.Machine

/-! ### Admission (40_commands.md R153) -/

/-- The averages in `RES0` to `RES3`, the command complete. -/
def State.averaged (s : State) : State :=
  ((s.openDest .res).putRes s.avgHeader.avgR s.avgHeader.avgG s.avgHeader.avgB s.avgA).complete .res

theorem exec_hashAvg (s : State) : exec .hashAvg s = s.command s.hashAvgAdmission fun _ => s.averaged := rfl

/-- The payload lacks a byte that HASH_AVG reads: one of the first five, or the alpha byte. -/
abbrev State.AvgShort (s : State) : Prop :=
  s.regs.inLen.toNat - s.regs.inOff.toNat < 5 ∨
    (s.regs.inLen.toNat - s.regs.inOff.toNat = 5 ∧ s.payloadByte 2 / 128 = 1)

/-- The alpha flag is the top bit of the third byte (30_encoding.md R115). -/
theorem avgHeader_hasAlpha (s : State) : s.avgHeader.hasAlpha = decide (s.payloadByte 2 / 128 = 1) := by
  have h2 := payloadByte_lt s 2
  have hbit : s.payloadByte 2 / 128 % 2 = s.payloadByte 2 / 128 := by omega
  exact (header_hasAlpha s).trans (by rw [hbit])

/-- The check of the payload's length. -/
theorem avgCheck_iff (s : State) :
    (5 ≤ s.payloadLen && (!s.avgHeader.hasAlpha || 6 ≤ s.payloadLen)) = true ↔ ¬ s.AvgShort := by
  rw [Bool.and_eq_true, Bool.or_eq_true, lengthCheck_iff, lengthCheck_iff, avgHeader_hasAlpha, Bool.not_eq_true',
    decide_eq_false_iff_not]
  omega

/-- Everything HASH_AVG does when it is started: the two checks in order, then the averages. -/
theorem exec_hashAvg_ready {s : State} (h : s.Ready) : exec .hashAvg s = .next (
    if ¬(s.regs.inOff.toNat ≤ s.regs.inLen.toNat ∧ s.regs.inLen.toNat ≤ s.params.inMax) then s.raise .paramRange .dct
    else if s.AvgShort then s.raise .hashShort .dct
    else s.averaged) := by
  rw [exec_hashAvg]
  exact command_check_eq h (by rw [not_not, payloadInRange_iff]) fun _ =>
    command_check_eq h (avgCheck_iff s) fun _ => command_runs h _

/-! ### The averages in the result registers (45_dct_hash.md R360) -/

theorem avgA_eq (s : State) : s.avgA = if s.header24 / 2 ^ 23 % 2 = 1 then s.payloadByte 5 % 16 else 15 := by
  simp [State.avgA, State.avgHeader, hashHeader]

/-- Everything HASH_AVG changes. -/
theorem averaged_state (s : State) : s.averaged = { s with
    regs := { s.regs with
      res0 := reg s.avgHeader.avgR, res1 := reg s.avgHeader.avgG, res2 := reg s.avgHeader.avgB, res3 := reg s.avgA },
    valid := { s.valid with res := true }, phase := .done, pristine := false } := rfl

/-! ### The numerators over 378 (45_dct_hash.md R346, R360) -/

/-- Clamping a fraction clamps its numerator. -/
theorem clamp_div {n : Rat} (hn : 0 < n) (v : Rat) : max 0 (min 1 (v / n)) = max 0 (min n v) / n := by
  rw [← max_div_div_right hn.le, ← min_div_div_right hn.le, zero_div, div_self hn.ne']

/-- A colour that is an integer over 378, clamped. -/
theorem clamp_eq_numerator {c : Rat} {v : Int} (h : c = v / 378) :
    max 0 (min 1 c) = ((max 0 (min 378 v) : Int) : Rat) / 378 := by
  rw [h, clamp_div (by decide)]
  push_cast
  rfl

section

variable {ld pd qd : Nat} {l p q b r g : Rat} (hl : l = ld / 63) (hp : p = pd / (63 / 2) - 1) (hq : q = qd / (63 / 2) - 1)
  (hb : b = l - 2 / 3 * p) (hr : r = (3 * l - b + q) / 2) (hg : g = r - q)

include hl hp hb

theorem blue_eq_numerator : b = ((6 * ld - 8 * pd + 252 : Int) : Rat) / 378 := by
  rw [hb, hl, hp]
  push_cast
  ring

include hq hr

theorem red_eq_numerator : r = ((6 * ld + 4 * pd + 6 * qd - 315 : Int) : Rat) / 378 := by
  rw [hr, hb, hl, hp, hq]
  push_cast
  ring

include hg

theorem green_eq_numerator : g = ((6 * ld + 4 * pd - 6 * qd + 63 : Int) : Rat) / 378 := by
  rw [hg, red_eq_numerator hl hp hq hb hr, hq]
  push_cast
  ring

end

/-- Settles O44, by the two checks and the colour formula put over 378. -/
theorem hashAvgCompletes : Obligations.HashAvgCompletes := by
  refine ⟨fun s h hr hh ho hl h5 h6 => ?_, fun s hr hp => ?_, fun s hr ho hl hs => ?_,
    fun ld pd qd l p q b r g _ _ _ hl hp hq hb hr hg => ?_⟩
  · obtain rfl : h = s.header24 := hh
    have hlong : ¬ s.AvgShort := by
      have h0 := payloadByte_lt s 0
      have h1 := payloadByte_lt s 1
      unfold State.header24 at h6
      unfold State.AvgShort
      omega
    rw [exec_hashAvg_ready hr, if_neg (not_not.2 ⟨ho, hl⟩), if_neg hlong, averaged_state, avgA_eq]
    rfl
  · rw [exec_hashAvg_ready hr, if_pos hp]
    rfl
  · rw [exec_hashAvg_ready hr, if_neg (not_not.2 ⟨ho, hl⟩), if_pos hs]
    rfl
  · exact ⟨clamp_eq_numerator (red_eq_numerator hl hp hq hb hr), clamp_eq_numerator (green_eq_numerator hl hp hq hb hr hg),
      clamp_eq_numerator (blue_eq_numerator hl hp hb)⟩

end Sys2Proof.Machine
end

section
/-! The frequency pairs of a grid, and the length of a hash by its header (45_dct_hash.md R327, R345). -/

namespace Sys2Proof.Machine

/-! ### The frequency pairs (45_dct_hash.md R327) -/

theorem mem_freqPairs {nx ny cx cy : Nat} : (cx, cy) ∈ freqPairs nx ny ↔ cy < ny ∧ cx < nx ∧ cx * ny < nx * (ny - cy) := by
  simp [freqPairs]

/-- `p` before `q`: `cy` outer, `cx` inner. -/
def PairBefore (p q : Nat × Nat) : Prop := p.2 < q.2 ∨ (p.2 = q.2 ∧ p.1 < q.1)

/-- The rows increase, and the pairs within a row. -/
theorem freqPairs_sorted (nx ny : Nat) : (freqPairs nx ny).Pairwise PairBefore := by
  refine List.pairwise_flatMap.2 ⟨fun cy _ => ?_, List.pairwise_lt_range.imp fun {cy cy'} hrow => ?_⟩
  · exact List.pairwise_map.2 ((List.pairwise_lt_range.filter _).imp fun h => .inr ⟨rfl, h⟩)
  · intro p hp q hq
    obtain ⟨cx, -, rfl⟩ := List.mem_map.1 hp
    obtain ⟨cx', -, rfl⟩ := List.mem_map.1 hq
    exact .inl hrow

theorem freqPairs_nodup (nx ny : Nat) : (freqPairs nx ny).Nodup :=
  (freqPairs_sorted nx ny).imp fun {p q} h => by
    rintro rfl
    obtain h | ⟨-, h⟩ := h <;> exact lt_irrefl _ h

/-- The DC term comes first. -/
theorem freqPairs_head (nx ny : Nat) : (freqPairs (nx + 1) (ny + 1)).head? = some (0, 0) := by
  simp [freqPairs, List.range_succ_eq_map]

/-- Settles O50: membership, the order, the DC term, the AC list, and the four lists by evaluation. -/
theorem frequencyPairOrder : Obligations.FrequencyPairOrder := by
  refine fun nx ny => ⟨fun _ _ => mem_freqPairs, freqPairs_sorted nx ny, fun hx hy => ?_, List.drop_one, ?_⟩
  · obtain ⟨nx, rfl⟩ := Nat.exists_eq_add_of_le' hx
    obtain ⟨ny, rfl⟩ := Nat.exists_eq_add_of_le' hy
    exact freqPairs_head nx ny
  · decide

/-! ### The orientation does not matter (45_dct_hash.md R345) -/

/-- The cutoff is the same from both sides. -/
theorem swap_mem_freqPairs {nx ny cx cy : Nat} : (cy, cx) ∈ freqPairs ny nx ↔ (cx, cy) ∈ freqPairs nx ny := by
  rw [mem_freqPairs, mem_freqPairs, Nat.mul_sub, Nat.mul_sub, Nat.mul_comm ny nx, Nat.mul_comm ny cx, Nat.mul_comm nx cy]
  omega

/-- A grid on its side has as many pairs. -/
theorem freqPairs_swap (nx ny : Nat) : ((freqPairs nx ny).map Prod.swap).Perm (freqPairs ny nx) := by
  refine (List.perm_ext_iff_of_nodup ((freqPairs_nodup nx ny).map Prod.swap_injective) (freqPairs_nodup ny nx)).2 fun p => ?_
  rw [List.mem_map_of_involutive Prod.swap_swap]
  exact swap_mem_freqPairs

theorem acCount_comm (nx ny : Nat) : acCount nx ny = acCount ny nx := by
  rw [acCount, acCount, ← (freqPairs_swap nx ny).length_eq, List.length_map]

theorem lengthOfGrid_comm (a : Bool) (lx ly : Nat) : lengthOfGrid a lx ly = lengthOfGrid a ly lx := by
  rw [lengthOfGrid, lengthOfGrid, acCount_comm]

/-- The length a header implies depends on `hasAlpha` and `GRID` alone. -/
theorem need_of_grid (hd : HashHeader) : hd.need = lengthOfGrid hd.hasAlpha hd.grid (gridCap hd.hasAlpha) := by
  rw [need_eq, HashHeader.lx, HashHeader.ly]
  cases hd.isLandscape with
  | true => exact lengthOfGrid_comm _ _ _
  | false => rfl

/-! ### The lengths (45_dct_hash.md R345) -/

theorem lengthOfGrid_opaque : (∀ g ∈ [1, 2, 3], lengthOfGrid false g 7 = 17) ∧ lengthOfGrid false 4 7 = 19 ∧
    lengthOfGrid false 5 7 = 21 ∧ lengthOfGrid false 6 7 = 23 ∧ lengthOfGrid false 7 7 = 24 := by
  decide

theorem lengthOfGrid_alpha : (∀ g ∈ [1, 2, 3], lengthOfGrid true g 5 = 23) ∧ lengthOfGrid true 4 5 = 25 ∧
    lengthOfGrid true 5 5 = 25 ∧ lengthOfGrid true 6 5 = 28 ∧ lengthOfGrid true 7 5 = 29 := by
  decide

/-- Settles O49, by the table of the grids in one orientation. -/
theorem hashLengthTable : Obligations.HashLengthTable := by
  refine ⟨fun _ => rfl, fun _ => rfl, fun hd ha => ?_, fun hd ha => ?_⟩
  · obtain ⟨h3, h4, h5, h6, h7⟩ := lengthOfGrid_opaque
    rw [need_of_grid, ha]
    exact ⟨h3 hd.grid, fun h => h ▸ h4, fun h => h ▸ h5, fun h => h ▸ h6, fun h => h ▸ h7⟩
  · obtain ⟨h3, h4, h5, h6, h7⟩ := lengthOfGrid_alpha
    rw [need_of_grid, ha]
    exact ⟨h3 hd.grid, fun h => h ▸ h4, fun h => h ▸ h5, fun h => h ▸ h6, fun h => h ▸ h7⟩

end Sys2Proof.Machine
end

section
/-! Faults: the value of `ERR`, and that FAULT is left only by a CLEAR or a reset (60_exceptions.md R389, R391, R392). -/

namespace Sys2Proof.Machine

/-! ### The value of `ERR` (60_exceptions.md R389) -/

theorem faultCode_cls_le (f : FaultCode) : f.cls ≤ 8 := by cases f <;> decide

theorem faultCode_cause_le (f : FaultCode) : f.cause ≤ 9 := by cases f <;> decide

theorem unitId_code_le (u : UnitId) : u.code ≤ 5 := by cases u <;> decide

theorem errWord_toNat (f : FaultCode) (u : UnitId) : (errWord f u).toNat = f.cls + 256 * f.cause + 65536 * u.code := by
  have hcls := faultCode_cls_le f
  have hcause := faultCode_cause_le f
  have hunit := unitId_code_le u
  exact reg_toNat (by omega)

/-- Settles O9: class, cause and unit fit their fields, and the six examples by evaluation. -/
theorem faultErrValue : Obligations.FaultErrValue :=
  ⟨errWord_toNat, rfl, rfl, rfl, rfl, rfl, rfl⟩

/-! ### The way out of FAULT (60_exceptions.md R391, R392) -/

theorem proceed_fault {s : State} (h : s.phase = .fault) : s.proceed = .next s := by
  rw [State.proceed, h]

theorem doReadBuf_phase {s t : State} {b : HostRBuf} {i n : Nat} (h : s.doReadBuf b i n = .next t) : t.phase = s.phase := by
  obtain ⟨c, l, rfl⟩ := doReadBuf_next h
  rfl

theorem hostReadReg_phase (s : State) (n : Nat) : (s.hostReadReg n).2.phase = s.phase := by
  obtain ⟨c, hc⟩ := hostReadReg_state s n
  rw [hc]

theorem doReadReg_phase (s : State) (n : Nat) : (s.doReadReg n).phase = s.phase := hostReadReg_phase s n

theorem doReadOut_phase {s t : State} (h : s.doReadOut = .next t) : t.phase = s.phase :=
  (doReadBuf_phase h).trans (hostReadReg_phase s 0x17)

theorem doWriteReg_phase (s : State) (n : Nat) (v : Word) : (s.doWriteReg n v).phase = s.phase := by
  unfold State.doWriteReg
  split
  · rfl
  · rfl

theorem doWriteBuf_phase {s t : State} {b : HostWBuf} {i : Nat} {bytes : List Byte} (h : s.doWriteBuf b i bytes = .next t) :
    t.phase = s.phase := by
  unfold State.doWriteBuf at h
  split_ifs at h
  · exact Host.Outcome.next.inj h ▸ rfl
  · exact Host.Outcome.next.inj h ▸ rfl

theorem doStopIfFault_phase (s : State) (n : Nat) : (s.doStopIfFault n).phase = s.phase := by
  unfold State.doStopIfFault
  split
  · rfl
  · rfl

/-- A register write in FAULT leaves it only as a CLEAR. -/
theorem hostWriteReg_fault {s t : State} {n : Nat} {v : Word} (h : s.phase = .fault) (he : s.hostWriteReg n v = .next t) :
    t.phase = .fault ∨ (n = 0 ∧ v.toNat % 16 = 1) := by
  by_cases hn : n = 0
  · subst hn
    rw [hostWriteReg_cmd, execCommand_fault h] at he
    obtain rfl := Host.Outcome.next.inj he
    split
    · exact .inr ⟨rfl, ‹_›⟩
    · exact .inl h
  · rw [State.hostWriteReg, if_neg hn] at he
    exact .inl (Host.Outcome.next.inj he ▸ (doWriteReg_phase s n v).trans h)

/-- An action of the host in FAULT leaves it only as a reset or a CLEAR. -/
theorem act_fault {s t : State} {op : HostOp} (h : s.phase = .fault) (he : s.act op = .next t) :
    t.phase = .fault ∨ op = .reset ∨ ∃ v : Word, op = .writeReg 0 v ∧ v.toNat % 16 = 1 := by
  cases op with
  | reset => exact .inr (.inl rfl)
  | writeReg n v => exact (hostWriteReg_fault h he).imp_right fun ⟨hn, hv⟩ => .inr ⟨v, hn ▸ rfl, hv⟩
  | readReg n => exact .inl (Host.Outcome.next.inj he ▸ (doReadReg_phase s n).trans h)
  | writeBuf b i bytes => exact .inl ((doWriteBuf_phase he).trans h)
  | readBuf b i n => exact .inl ((doReadBuf_phase he).trans h)
  | readOut => exact .inl ((doReadOut_phase he).trans h)
  | tick => exact .inl (Host.Outcome.next.inj ((proceed_fault h).symm.trans he) ▸ h)
  | stopIfFault n => exact .inl (Host.Outcome.next.inj he ▸ (doStopIfFault_phase s n).trans h)
  | frame _ | decodeStill _ | decodeAnim _ => exact .inl (Host.Outcome.next.inj he ▸ h)

/-- Settles O8: no unit runs in FAULT, so the step was an action of the host. -/
theorem faultIsLeftOnlyByClearOrReset : Obligations.FaultIsLeftOnlyByClearOrReset := by
  intro s t h he ht
  obtain hp | ⟨item, rest, hs, ha⟩ := step_cases he
  · exact absurd (Host.Outcome.next.inj ((proceed_fault h).symm.trans hp) ▸ h) ht
  · exact ⟨item, rest, hs, (act_fault (s := { s with script := rest }) h ha).resolve_left ht⟩

end Sys2Proof.Machine
end

section
/-! What only the host changes: no command, element or mode writes the operands of the commands (10_state.md section 3, R33, R38;
20_memory.md R85; 60_exceptions.md R390). -/

namespace Sys2Proof.Machine

/-! ### What each unit leaves to the host -/

theorem hostFrame_refl (s : State) : s.HostFrame s := by and_intros <;> rfl

/-- Fault entry writes `ERR` alone of the registers (60_exceptions.md R390). -/
theorem hostFrame_raise (s : State) (f : FaultCode) (u : UnitId) : s.HostFrame (s.raise f u) := by and_intros <;> rfl

theorem hostFrame_expand (s : State) (ops : List HostOp) : s.HostFrame (s.expand ops) := by and_intros <;> rfl

theorem hostFrame_of_inflateFrame {s t : State} (h : s.InflateFrame t) : s.HostFrame t := by
  obtain ⟨hp, hr, -, hb, -, -, hl, -, he, -, -⟩ := h
  rw [State.HostFrame, hr, hb]
  exact ⟨hp, hl, he, by and_intros <;> rfl⟩

theorem hostFrame_of_reconFrame {s t : State} (h : s.ReconFrame t) : s.HostFrame t := by
  obtain ⟨hp, hr, -, hb, -, -, hl, -, he, -, -, -⟩ := h
  rw [State.HostFrame, hr, hb]
  exact ⟨hp, hl, he, by and_intros <;> rfl⟩

theorem hostFrame_of_composeFrame {s t : State} (h : s.ComposeFrame t) : s.HostFrame t := by
  obtain ⟨hp, hr, -, hb, -, -, -, hl, he, -, -, -⟩ := h
  rw [State.HostFrame, hr, hb]
  exact ⟨hp, hl, he, by and_intros <;> rfl⟩

/-- A command reads its operands and writes none (20_memory.md R85). -/
theorem hostFrame_start {s t : State} (h : s.Starts t) : s.HostFrame t := by
  cases h with
  | compose _ =>
    obtain ⟨m, f, hc⟩ := startCompose_state s
    rw [hc]
    and_intros <;> rfl
  | nop | inflate _ | recon _ | canvasInit _ | hashEnc _ | hashDec _ | hashAvg _ | hashAspect _ => and_intros <;> rfl

/-! ### Every instruction -/

theorem execCommand_hostFrame {s t : State} {w : Nat} (h : exec (decodeCmd w) s = .next t) : s.HostFrame t := by
  obtain rfl | ⟨-, f, u, rfl⟩ | ⟨-, rfl⟩ | ⟨-, hs⟩ := execCommand_cases h
  · exact hostFrame_refl _
  · exact hostFrame_raise s f u
  · and_intros <;> rfl
  · exact hostFrame_start hs

/-- The value of an element of the stream. -/
theorem run_u1_hostFrame {s t : State} {a : Await} {w : Nat} (ha : a.isU1 = true) (h : s.run a.format w = .next t) :
    s.HostFrame t :=
  hostFrame_of_inflateFrame (((inflateFrame_kept s).run ha (inflateFrame_refl s) h).elim id id)

/-- A value read in any format. -/
theorem run_hostFrame {s t : State} {f : Format} {w : Nat} (h : s.run f w = .next t) : s.HostFrame t := by
  cases f with
  | cmd =>
    obtain ⟨i, hd, he⟩ := run_next h
    simp only [decode] at hd
    split_ifs at hd
    cases hd
    exact execCommand_hostFrame he
  | hdr => exact run_u1_hostFrame (a := .header) rfl h
  | body => exact run_u1_hostFrame (a := .body) rfl h
  | counts => exact run_u1_hostFrame (a := .counts) rfl h
  | metaLength => exact run_u1_hostFrame (a := .metaLength) rfl h
  | codeLengths => exact run_u1_hostFrame (a := .codeLengths) rfl h
  | cl => exact run_u1_hostFrame (a := .clSymbol) rfl h
  | ll => exact run_u1_hostFrame (a := .llSymbol) rfl h
  | d => exact run_u1_hostFrame (a := .dSymbol) rfl h
  | filter => exact hostFrame_of_reconFrame (run_filter_frame h).1
  | blend =>
    obtain ⟨hf, -⟩ | ⟨-, rfl⟩ := run_blend_frame h
    · exact hostFrame_of_composeFrame hf
    · exact hostFrame_raise s _ _
  | dispose =>
    obtain ⟨hf, -⟩ | ⟨-, rfl⟩ := run_dispose_frame h
    · exact hostFrame_of_composeFrame hf
    · exact hostFrame_raise s _ _

/-- A pseudo-command only queues actions of the host (30_encoding.md R121). -/
theorem exec_hostFrame_of_encode_none {i : Instr} {s t : State} (hn : encode i = none) (h : exec i s = .next t) :
    s.HostFrame t := by
  obtain ⟨a, rfl⟩ | ⟨a, rfl⟩ | ⟨a, rfl⟩ := pseudo_of_encode_none hn
  · exact Host.Outcome.next.inj h ▸ hostFrame_expand s _
  · exact Host.Outcome.next.inj h ▸ hostFrame_expand s _
  · exact Host.Outcome.next.inj h ▸ hostFrame_expand s _

/-- A reserved command, symbol, filter type or mode whose operand is not of its row raises as one of its row does. -/
theorem exec_hostFrame_of_not_wf {i : Instr} {s t : State} {v : Format × Nat} (hv : encode i = some v) (hw : ¬ i.wf = true)
    (h : exec i s = .next t) : s.HostFrame t := by
  cases i with
  | cmdReserved6To7 _ => exact execCommand_hostFrame (w := 6) h
  | cmdReserved12To15 _ => exact execCommand_hostFrame (w := 12) h
  | llIllegal286To287 _ | dIllegal30To31 _ | filterIllegal _ | blendReserved2To3 _ =>
    exact Host.Outcome.next.inj h ▸ hostFrame_raise s _ _
  | frame _ | decodeStill _ | decodeAnim _ => cases hv
  | _ => exact absurd rfl hw

/-- A well-formed instruction is the value that encodes it, read in its format. -/
theorem exec_hostFrame {i : Instr} {s t : State} (h : exec i s = .next t) : s.HostFrame t := by
  cases hv : encode i with
  | none => exact exec_hostFrame_of_encode_none hv h
  | some v =>
    by_cases hw : i.wf = true
    · exact run_hostFrame ((run_of_decode (decode_encode hw hv) s).trans h)
    · exact exec_hostFrame_of_not_wf hv hw h

/-- Settles O52: `exec_next`, and the frame of every value read in any format. -/
theorem operandsAreHostOnly : Obligations.OperandsAreHostOnly :=
  ⟨exec_next, fun _ _ _ => exec_hostFrame⟩

end Sys2Proof.Machine
end
